-- ==== Sys2Proof/Word.lean ====
section
/-! DEFINITION. The words of the part (bytes, link words, timebase values, delay-line taps), the numbered things the
manual counts by (cameras 0–3, encoder channels 0–2, outputs A and B, slots 0–5, requester slots 1–6, the two image
axes), and for each of them a record with one component for every member. -/

namespace Sys2Proof

/-- One byte of a CAN message. -/
abbrev Byte := BitVec 8
/-- One 16-bit link word, pixel or parameter number. -/
abbrev Word := BitVec 16
/-- A timebase value: a 32-bit count of microseconds (R1). -/
abbrev Time := BitVec 32
/-- A tap of a link's 128-tap sampling delay line. -/
abbrev Tap := BitVec 7

/-- The four cameras. -/
inductive CamId | cam0 | cam1 | cam2 | cam3
deriving DecidableEq, Repr

/-- The three shaft encoder channels. -/
inductive ChanId | ec0 | ec1 | ec2
deriving DecidableEq, Repr

/-- The two outputs, numbered 0 (A) and 1 (B) in messages. -/
inductive OutId | a | b
deriving DecidableEq, Repr

/-- The six slots of a camera's ring. -/
inductive SlotId | s0 | s1 | s2 | s3 | s4 | s5
deriving DecidableEq, Repr

/-- The six requester slots, 1–6. -/
inductive ReqSlot | k1 | k2 | k3 | k4 | k5 | k6
deriving DecidableEq, Repr

/-- A requester: number 0 is the internal auger requester, 1–6 the masters by their slots. -/
inductive Requester | auger | master (k : ReqSlot)
deriving DecidableEq, Repr

/-- The two image axes. -/
inductive Axis | x | y
deriving DecidableEq, Repr

def CamId.num : CamId → Nat
  | .cam0 => 0 | .cam1 => 1 | .cam2 => 2 | .cam3 => 3
def ChanId.num : ChanId → Nat
  | .ec0 => 0 | .ec1 => 1 | .ec2 => 2
def OutId.num : OutId → Nat
  | .a => 0 | .b => 1
def SlotId.num : SlotId → Nat
  | .s0 => 0 | .s1 => 1 | .s2 => 2 | .s3 => 3 | .s4 => 4 | .s5 => 5
def ReqSlot.num : ReqSlot → Nat
  | .k1 => 1 | .k2 => 2 | .k3 => 3 | .k4 => 4 | .k5 => 5 | .k6 => 6
def Requester.num : Requester → Nat
  | .auger => 0
  | .master k => k.num

def CamId.all : List CamId := [.cam0, .cam1, .cam2, .cam3]
def ChanId.all : List ChanId := [.ec0, .ec1, .ec2]
def OutId.all : List OutId := [.a, .b]
def SlotId.all : List SlotId := [.s0, .s1, .s2, .s3, .s4, .s5]
def ReqSlot.all : List ReqSlot := [.k1, .k2, .k3, .k4, .k5, .k6]
def Requester.all : List Requester := .auger :: ReqSlot.all.map .master

/-- The camera a number names, if any (R203: cameras are 0–3). -/
def CamId.ofNat? : Nat → Option CamId
  | 0 => some .cam0 | 1 => some .cam1 | 2 => some .cam2 | 3 => some .cam3 | _ => none
/-- The channel a number names, if any. -/
def ChanId.ofNat? : Nat → Option ChanId
  | 0 => some .ec0 | 1 => some .ec1 | 2 => some .ec2 | _ => none
/-- The output a number names, if any. -/
def OutId.ofNat? : Nat → Option OutId
  | 0 => some .a | 1 => some .b | _ => none

/-- The other output. -/
def OutId.other : OutId → OutId
  | .a => .b | .b => .a
/-- The camera whose turn follows (R197: 0, 1, 2, 3 and round again). -/
def CamId.next : CamId → CamId
  | .cam0 => .cam1 | .cam1 => .cam2 | .cam2 => .cam3 | .cam3 => .cam0
/-- The channel that follows, round again after the last (R197). -/
def ChanId.next : ChanId → ChanId
  | .ec0 => .ec1 | .ec1 => .ec2 | .ec2 => .ec0

/-- One component for each camera. -/
structure PerCam (α : Type) where
  cam0 : α
  cam1 : α
  cam2 : α
  cam3 : α
deriving DecidableEq, Repr

/-- One component for each encoder channel. -/
structure PerChan (α : Type) where
  ec0 : α
  ec1 : α
  ec2 : α
deriving DecidableEq, Repr

/-- One component for each output. -/
structure PerOut (α : Type) where
  a : α
  b : α
deriving DecidableEq, Repr

/-- One component for each slot of a ring. -/
structure PerSlot (α : Type) where
  s0 : α
  s1 : α
  s2 : α
  s3 : α
  s4 : α
  s5 : α
deriving DecidableEq, Repr

/-- One component for each requester slot 1–6. -/
structure PerReq (α : Type) where
  k1 : α
  k2 : α
  k3 : α
  k4 : α
  k5 : α
  k6 : α
deriving DecidableEq, Repr

/-- A horizontal and a vertical component. -/
structure XY (α : Type) where
  x : α
  y : α
deriving DecidableEq, Repr

section
variable {α β : Type}

def PerCam.get (v : PerCam α) : CamId → α
  | .cam0 => v.cam0 | .cam1 => v.cam1 | .cam2 => v.cam2 | .cam3 => v.cam3
def PerCam.set (v : PerCam α) (c : CamId) (a : α) : PerCam α :=
  match c with
  | .cam0 => { v with cam0 := a }
  | .cam1 => { v with cam1 := a }
  | .cam2 => { v with cam2 := a }
  | .cam3 => { v with cam3 := a }
def PerCam.same (a : α) : PerCam α := ⟨a, a, a, a⟩
def PerCam.map (f : α → β) (v : PerCam α) : PerCam β := ⟨f v.cam0, f v.cam1, f v.cam2, f v.cam3⟩

def PerChan.get (v : PerChan α) : ChanId → α
  | .ec0 => v.ec0 | .ec1 => v.ec1 | .ec2 => v.ec2
def PerChan.set (v : PerChan α) (c : ChanId) (a : α) : PerChan α :=
  match c with
  | .ec0 => { v with ec0 := a }
  | .ec1 => { v with ec1 := a }
  | .ec2 => { v with ec2 := a }
def PerChan.map (f : α → β) (v : PerChan α) : PerChan β := ⟨f v.ec0, f v.ec1, f v.ec2⟩

def PerOut.get (v : PerOut α) : OutId → α
  | .a => v.a | .b => v.b
def PerOut.set (v : PerOut α) (o : OutId) (e : α) : PerOut α :=
  match o with
  | .a => { v with a := e }
  | .b => { v with b := e }
def PerOut.map (f : α → β) (v : PerOut α) : PerOut β := ⟨f v.a, f v.b⟩

def PerSlot.get (v : PerSlot α) : SlotId → α
  | .s0 => v.s0 | .s1 => v.s1 | .s2 => v.s2 | .s3 => v.s3 | .s4 => v.s4 | .s5 => v.s5
def PerSlot.set (v : PerSlot α) (k : SlotId) (e : α) : PerSlot α :=
  match k with
  | .s0 => { v with s0 := e }
  | .s1 => { v with s1 := e }
  | .s2 => { v with s2 := e }
  | .s3 => { v with s3 := e }
  | .s4 => { v with s4 := e }
  | .s5 => { v with s5 := e }
def PerSlot.same (e : α) : PerSlot α := ⟨e, e, e, e, e, e⟩
def PerSlot.map (f : α → β) (v : PerSlot α) : PerSlot β :=
  ⟨f v.s0, f v.s1, f v.s2, f v.s3, f v.s4, f v.s5⟩

def PerReq.get (v : PerReq α) : ReqSlot → α
  | .k1 => v.k1 | .k2 => v.k2 | .k3 => v.k3 | .k4 => v.k4 | .k5 => v.k5 | .k6 => v.k6
def PerReq.set (v : PerReq α) (k : ReqSlot) (e : α) : PerReq α :=
  match k with
  | .k1 => { v with k1 := e }
  | .k2 => { v with k2 := e }
  | .k3 => { v with k3 := e }
  | .k4 => { v with k4 := e }
  | .k5 => { v with k5 := e }
  | .k6 => { v with k6 := e }
def PerReq.same (e : α) : PerReq α := ⟨e, e, e, e, e, e⟩

def XY.get (v : XY α) : Axis → α
  | .x => v.x | .y => v.y
def XY.set (v : XY α) (ax : Axis) (e : α) : XY α :=
  match ax with
  | .x => { v with x := e }
  | .y => { v with y := e }
def XY.same (e : α) : XY α := ⟨e, e⟩
/-- The record whose component on each axis is what `f` gives for that axis. -/
def XY.ofAxis (f : Axis → α) : XY α := ⟨f .x, f .y⟩

end

end Sys2Proof
end

