-- ==== Sys2Proof/Syntax.lean ====
section
/-! DEFINITION. The commands of the part: one constructor of `Instr` for every row of spec/opcode_table.json, with the
operands the row's event brings with it. A command is a word of a camera link, an edge of an encoder input, a CAN frame
or one of its inbound message kinds, an expiry of a timer, a level change of a pin, or a completion the part itself
reaches. The part has no program counter and fetches nothing. -/

namespace Sys2Proof

/-- The levels of one encoder channel's three inputs. -/
structure EncLevels where
  a : Bool
  b : Bool
  index : Bool
deriving DecidableEq, Repr

/-- What the part finds on its pins when it starts (R211): the rate strap (high selects 500 kbit/s), the identifier
strap value, the SETUP line, and the first sampled level of every encoder input (R24). -/
structure BootLevels where
  rateHigh : Bool
  idStrap : BitVec 4
  setup : Bool
  encoders : PerChan EncLevels
deriving DecidableEq, Repr

/-- A CAN frame received without error (R187). -/
structure CanFrame where
  extended : Bool
  remote : Bool
  ident : Nat
  data : List Byte
deriving DecidableEq, Repr

/-- The commands, in the order of spec/opcode_table.json. Messages carry their bytes as received: `node` is the sender's
node code, `value` the signed 32-bit value of a PARAM WRITE. A camera or encoder COMMAND row carries the whole 16-bit
field of command bits of its message; the row's own bit is taken as set (R190 acts on all set bits of one message in
one event). `offered` is the tap the reference delay line offers at that moment. -/
inductive Instr where
  | powerOn (levels : BootLevels)
  | resetLine (levels : BootLevels)
  | setupLineChange (level : Bool)
  | referenceLock (c : CamId) (offered : Tap)
  | acquireTimeout (c : CamId)
  | gateEnd (c : CamId)
  | referenceUnlock (c : CamId)
  | backoffEnd (c : CamId)
  | signalLoss (c : CamId)
  | frameStart (c : CamId) (counter : Byte) (offered : Tap)
  | lineStart (c : CamId) (number : Word)
  | pixelWord (c : CamId) (word : Word)
  | lineEnd (c : CamId) (check : Word)
  | frameEnd (c : CamId) (offered : Tap)
  | jobCompletion
  | quadratureEdge (e : ChanId) (a b : Bool)
  | indexEdge (e : ChanId) (level : Bool)
  | stopWatchExpiry (e : ChanId)
  | outputFrameStart (o : OutId)
  | viewRequest (node output layout camA camB priority : Byte) (hold : Word)
  | viewRelease (node output : Byte)
  | timedExpiry (r : Requester) (o : OutId)
  | keepaliveExpiry (k : ReqSlot)
  | dwellExpiry (o : OutId)
  | freeze (node output : Byte)
  | unfreeze (node output action : Byte)
  | copyCompletion
  | paramWrite (node : Byte) (number : Word) (value : BitVec 32)
  | paramRead (node : Byte) (number : Word)
  | keepalive (node : Byte)
  | canFrameIgnored (frame : CanFrame)
  | linkReset (node : Byte) (c : CamId) (bits : Word)
  | refRefresh (node : Byte) (c : CamId) (bits : Word)
  | tableClear (node : Byte) (c : CamId) (bits : Word)
  | forceTapUpdate (node : Byte) (c : CamId) (bits : Word) (offered : Tap)
  | clearCounts (node : Byte) (c : CamId) (bits : Word)
  | clearPosition (node : Byte) (e : ChanId) (bits : Word)
  | armIndex (node : Byte) (e : ChanId) (bits : Word)
  | releaseCapture (node : Byte) (e : ChanId) (bits : Word)
  | clearCountsEncoder (node : Byte) (e : ChanId) (bits : Word)
  | softReset (node : Byte) (bits : Word) (underWay : Bool)
  | linkEnable (node : Byte) (c : CamId) (value : BitVec 32)
  | tapOverride (node : Byte) (c : CamId) (value : BitVec 32) (offered : Tap)
  | tapGate (node : Byte) (c : CamId) (value : BitVec 32) (offered : Tap)
  | holdLimit (node : Byte) (c : CamId) (value : BitVec 32)
  | phaseSource (node : Byte) (c : CamId) (value : BitVec 32)
  | enable (node : Byte) (e : ChanId) (value : BitVec 32)
  | mode (node : Byte) (e : ChanId) (value : BitVec 32)
  | cpr (node : Byte) (e : ChanId) (value : BitVec 32)
  | maxPeriod (node : Byte) (e : ChanId) (value : BitVec 32)
  | outThreshold (node : Byte) (e : ChanId) (value : BitVec 32)
  | inThreshold (node : Byte) (e : ChanId) (value : BitVec 32)
  | dwell (node : Byte) (value : BitVec 32)
  | keepaliveParamWrite (node : Byte) (value : BitVec 32)
  | augerPriority (node : Byte) (value : BitVec 32)
  | augerCamera (node : Byte) (value : BitVec 32)
  | augerOutput (node : Byte) (value : BitVec 32)
  | slotNodeCode (node : Byte) (k : ReqSlot) (value : BitVec 32)
  | slotMaxPriority (node : Byte) (k : ReqSlot) (value : BitVec 32)
  | viewStatusTimer
  | cameraTimer
  | encoderTimer
  | frameSent
  | transmitError
  | receiveError
  | busJoin
  | busOffRecovery (runs : Nat)
  | wordClock (c : CamId)
  | resetLineActive
  | command (node target : Byte) (bits : Word)
deriving DecidableEq, Repr

end Sys2Proof
end

