-- ==== Sys2Proof/Decode.lean ====
section
/-! DEFINITION. Commands spelled by words. No row of spec/opcode_table.json carries bits or fields: a command is an event
at a pin, a timer or the bus, not a word. So no word spells a command. The byte layouts of CAN messages are read in
Machine/Messages.lean, where a received frame becomes a message. -/

namespace Sys2Proof

/-- The command that a word of `nbits` bits spells by the table's bits: none, for no row gives any. -/
def decodeTableWord (_nbits _w : Nat) : Option Instr := none

end Sys2Proof
end

