-- ==== Sys2Proof/Config.lean ====
section
/-! DEFINITION. What the part fixes once: the geometry of frames, windows and phase tables, and the pixel that every
unwritten row of a frame buffer reads as. The manual leaves no result value of a command open, so there is no free value
here: what it leaves to the outside (the tap the reference offers, the levels on the pins, the order of simultaneous
events) arrives as an operand of a command or as the order of the queue. -/

namespace Sys2Proof.Config

/-- Black: luma 16 with both chroma values 128 (Conventions, "Image coordinates and pixels"). -/
def black : Word := 0x1080#16
/-- Width of a camera frame and of a raster line, in pixels. -/
def frameWidth : Nat := 800
/-- Height of a camera frame and of a raster, in lines. -/
def frameHeight : Nat := 480
/-- Width of the view area (R130) and of a still. -/
def viewWidth : Nat := 704
/-- Height of the view area (R130) and of a still. -/
def viewHeight : Nat := 416
/-- Bins of a phase table (R108). -/
def bins : Nat := 32

end Sys2Proof.Config
end

