-- ==== Sys2Proof/Machine/State.lean ====
section
/-! DEFINITION. The state of the part, block by block in the order of the manual's chapters, the reasons a step can stop,
and the state right after power-on. Everything is plain data. Quantities the manual counts or computes with are `Nat` or
`Int`; timebase values, link words, taps and message bytes are bit vectors. -/

namespace Sys2Proof.Machine

/-- The reasons a step of the part can stop with a fault. There is none: the manual names no condition under which the
part stops, and every command has a next state. (The manual's "fault notices" are messages, not stops.) -/
inductive Fault : Type
deriving DecidableEq, Repr

/-- The reasons a step can be refused. -/
inductive Refusal : Type where
  /-- A command whose meaning has not been written; raised by an arm of `exec` alone. Safe: the model stops where the
  part goes on. No arm raises it now. -/
  | notModelled (mnemonic : String)
deriving DecidableEq, Repr

/-! ### Parameters (R203) -/

/-- PHASE_SOURCE: none, EC0 or EC1. -/
inductive PhaseSource | none | ec0 | ec1
deriving DecidableEq, Repr
/-- MODE of an encoder channel. -/
inductive ChanMode | modular | linear
deriving DecidableEq, Repr
/-- EDGE of an encoder channel. -/
inductive EdgeMode | x1 | x2 | x4
deriving DecidableEq, Repr
/-- INDEX_MODE of an encoder channel. -/
inductive IndexMode | off | once | every
deriving DecidableEq, Repr
/-- A layout of an output. -/
inductive Layout | full | split
deriving DecidableEq, Repr

/-- The writable parameters of a camera, 0x0100 + 0x20·n. -/
structure CamParams where
  linkEnable : Bool
  linkRate : Nat
  tapOverride : Int
  tapUpdateFrames : Nat
  tapGate : Bool
  concealLimit : Nat
  nominalX : Nat
  nominalY : Nat
  phaseSource : PhaseSource
  exposureDelay : Int
  searchRx : Nat
  searchRy : Nat
  matchRatio : Nat
  acceptRatio : Nat
  holdLimit : Nat
  refreshCount : Nat
  driftShift : Nat
  learnShift : Nat
  minConf : Nat
  outlierLimit : Nat
  staleLimit : Nat
deriving DecidableEq, Repr

/-- The writable parameters of an encoder channel, 0x0200 + 0x20·n. -/
structure ChanParams where
  enable : Bool
  mode : ChanMode
  edge : EdgeMode
  hysteresis : Bool
  cpr : Nat
  indexMode : IndexMode
  indexValue : Int
  captureHold : Bool
  clearReload : Bool
  slipTol : Nat
  minPeriod : Nat
  maxPeriod : Nat
  outThreshold : Int
  inThreshold : Int
deriving DecidableEq, Repr

/-- The writable parameters of an output, 0x0300 + 0x10·n. -/
structure OutParams where
  defaultLayout : Layout
  defaultCamA : CamId
  defaultCamB : CamId
  rasterRate : Nat
deriving DecidableEq, Repr

/-- All writable parameters. -/
structure Params where
  cams : PerCam CamParams
  chans : PerChan ChanParams
  outs : PerOut OutParams
  dwell : Nat
  keepalive : Nat
  augerOutput : OutId
  augerCamera : CamId
  augerPriority : Nat
  nodeCode : PerReq Nat
  maxPriority : PerReq Nat
deriving DecidableEq, Repr

/-! ### Frame buffers -/

/-- Pixel rows of a frame buffer: (row number, pixels) pairs with row numbers strictly rising, and no row listed that
reads as an unlisted row does, namely black. -/
abbrev RowStore := List (Nat × List Word)

/-! ### Camera links (01) -/

inductive LinkState | down | acquire | verify | locked | failed
deriving DecidableEq, Repr

/-- The frame-in-progress state; RECEIVING names the FILLING slot the store allocated (R53). -/
inductive Progress | none | receiving (k : SlotId) | discarding
deriving DecidableEq, Repr

/-- The line between LINE-START and LINE-END. `skipping` says that a control word which is no marker has come since, so
that data words are discarded up to the next control word (R2); every marker that comes next closes or replaces the line,
and the discarding ends with it. -/
structure OpenLine where
  number : Nat
  count : Nat
  crc : Word
  bad : Bool
  buffer : List Word
  skipping : Bool
deriving DecidableEq, Repr

/-- A link receiver with its delay line (R4–R23). `timerStart` is the time at which the one timer that runs in the
present state was started: the acquire timer, the VERIFY gate, the signal-loss timer of LOCKED, or the backoff of
FAILED. -/
structure Link where
  state : LinkState
  attempts : Nat
  timerStart : Time
  gateRate : Nat
  wordClocks : Nat
  refLocked : Bool
  offered : Tap
  tap : Tap
  updatePending : Bool
  framesSinceUpdate : Nat
  consecMalformed : Nat
  progress : Progress
  nextPos : Nat
  lastGood : Option Nat
  openLine : Option OpenLine
  concealed : Nat
  lastFrameCounter : Byte
  lossCount : Nat
  failureCount : Nat
  malformedRunCount : Nat
deriving DecidableEq, Repr

/-! ### Encoder channels (02) -/

inductive ChanState | disabled | unhomed | homed | running | stopped | slipped
deriving DecidableEq, Repr
inductive Dir | up | down
deriving DecidableEq, Repr
inductive AugerState | unknown | inside | outside
deriving DecidableEq, Repr

/-- An encoder channel (R24–R47). The stop watch (R37) runs exactly while a MODULAR channel is HOMED or RUNNING, from
`lastIndex`, and so needs no field of its own. -/
structure Channel where
  state : ChanState
  position : Int
  lastDir : Dir
  dirChange : Bool
  armed : Bool
  captureCount : Int
  captureTime : Time
  captureHeld : Bool
  lastIndex : Option Time
  period : Option Nat
  auger : AugerState
  slipCount : Nat
  quadErrorCount : Nat
  glitchCount : Nat
  saturationCount : Nat
  stopCount : Nat
  levels : EncLevels
deriving DecidableEq, Repr

/-! ### Frame store (03) -/

inductive SlotState | free | filling | scored | ready
deriving DecidableEq, Repr
/-- The verdicts a frame record can carry. -/
inductive Verdict | accepted | forced
deriving DecidableEq, Repr
inductive AxisResult | valid | edge | poor | notRun | reference
deriving DecidableEq, Repr

/-- The encoder snapshot of a frame record (R45). -/
structure Snapshot where
  position : Int
  dir : Dir
  period : Option Nat
  state : ChanState
deriving DecidableEq, Repr

/-- The measurement of one axis: its result, and d unless the result is NOT_RUN or REFERENCE. -/
structure AxisMeas where
  result : AxisResult
  d : Option Int
deriving DecidableEq, Repr

/-- The frame record but for the profiles, which the slot holds. A field not yet written is absent. -/
structure Record where
  camera : CamId
  seq : Nat
  capture : Time
  snapshot : Option Snapshot
  concealed : Option Nat
  qx : Option Nat
  q : Option Nat
  verdict : Option Verdict
  meas : Option (XY AxisMeas)
  phase : Option Nat
  prediction : XY (Option Int)
  shift : Option (XY Int)
deriving DecidableEq, Repr

/-- A slot of a camera's ring; `profiles` are the column profile C (x) and the row profile Rw (y). -/
structure Slot where
  state : SlotState
  pins : Nat
  record : Option Record
  profiles : XY (List Nat)
  pixels : RowStore
deriving DecidableEq, Repr

/-- The frame store's part for one camera: its ring, its capture-order list (oldest first), its sequence counter and its
seven counts (R48–R65). -/
structure Ring where
  slots : PerSlot Slot
  order : List SlotId
  seqCounter : Nat
  received : Nat
  malformed : Nat
  rejected : Nat
  forced : Nat
  overruns : Nat
  superseded : Nat
  aborted : Nat
deriving DecidableEq, Repr

/-! ### Quality screen (04) -/

inductive ScreenVerdict | none | accepted | forced | rejected
deriving DecidableEq, Repr

structure Screen where
  clearRef : Nat
  rejectedRun : Nat
  lastQ : Nat
  lastVerdict : ScreenVerdict
deriving DecidableEq, Repr

/-! ### Registration engine (05) -/

/-- A job names a camera and a slot of its ring. -/
structure Job where
  cam : CamId
  slot : SlotId
deriving DecidableEq, Repr

/-- A phase with the bins taken from it (R113, R114). -/
structure PhaseInfo where
  phase : Nat
  b0 : Nat
  b1 : Nat
  bn : Nat
deriving DecidableEq, Repr

/-- The running job with everything it took at its start (R89). -/
structure RunningJob where
  job : Job
  phase : Option PhaseInfo
  prediction : XY (Option Int)
  reference : Option (XY (List Nat))
  refOff : XY Int
  drift : XY Int
  lastS : XY Int
  searchR : XY Nat
  matchRatio : Nat
deriving DecidableEq, Repr

/-- The engine; it is IDLE exactly while no job runs. `queue` is oldest first. -/
structure Engine where
  running : Option RunningJob
  queue : List Job
deriving DecidableEq, Repr

/-- A camera's motion context and its four engine counts (R93, R104). -/
structure Context where
  reference : Option (XY (List Nat))
  refOff : XY Int
  drift : XY Int
  lastS : XY Int
  validRun : Nat
  invalidRun : Nat
  refreshPending : Bool
  refLost : Bool
  lastResult : Option (XY AxisResult)
  jobs : Nat
  edges : Nat
  poors : Nat
  refreshes : Nat
deriving DecidableEq, Repr

/-! ### Phase correction tables (06) -/

/-- A bin: the values Tx, Ty and the confidences Cx, Cy. -/
structure Bin where
  value : XY Int
  conf : XY Nat
deriving DecidableEq, Repr

structure PhaseTable where
  bins : List Bin
  lastPhase : Option PhaseInfo
  learnCount : Nat
  outlierCount : Nat
  clearCount : Nat
deriving DecidableEq, Repr

/-! ### Display outputs (07) -/

/-- A view: FULL on one camera, or SPLIT of two. -/
inductive View | full (camA : CamId) | split (camA camB : CamId)
deriving DecidableEq, Repr
inductive Border | live | forced | held | stale | noSignal | frozen
deriving DecidableEq, Repr
inductive DisplayMode | liveView | still
deriving DecidableEq, Repr

/-- A window: its camera, the slot of that camera it pins, its crop origin and its border state. -/
structure Window where
  cam : CamId
  slot : Option SlotId
  ox : Nat
  oy : Nat
  border : Border
deriving DecidableEq, Repr

/-- A compositor. `grant` none is DEFAULT. The second window exists while `shown` is a SPLIT; its component keeps its
last crop origin meanwhile. `rasterStart` is the time at which the raster frame in progress was due to start,
`rasterRate` the rate it runs at, `rasterPhase` its place 0–2 in the 60-frame pattern, `patternFresh` whether
RASTER_RATE has been changed to 60 since (R129); `blanked` says that a soft reset blanked its view area (R149). -/
structure Compositor where
  grant : Option View
  shown : View
  win1 : Window
  win2 : Window
  frozen : Bool
  mode : DisplayMode
  frameStart : Time
  rasterStart : Time
  rasterRate : Nat
  rasterPhase : Nat
  patternFresh : Bool
  blanked : Bool
deriving DecidableEq, Repr

/-! ### View arbiter (08) -/

/-- A request-table entry (R154) but for its requester and output, which are its place in the table. `order` is its
place in the order of receipt over the whole table. -/
structure Entry where
  view : View
  priority : Nat
  hold : Nat
  receipt : Time
  order : Nat
deriving DecidableEq, Repr

/-- The entries of one output: at most one for each requester. -/
structure Requests where
  auger : Option Entry
  masters : PerReq (Option Entry)
deriving DecidableEq, Repr

/-- The arbiter's state for one output. `grantOrder` is the place of the latest grant in the order of receipt: the
entries received since have a larger `order`. -/
structure OutGrant where
  holder : Option Requester
  grantTime : Time
  dwellRunning : Bool
  candidate : Option Requester
  grantCount : Nat
  grantOrder : Nat
deriving DecidableEq, Repr

structure Arbiter where
  lastHeard : PerReq (Option Time)
  expiryCount : PerReq Nat
  table : PerOut Requests
  outs : PerOut OutGrant
  receipts : Nat
deriving DecidableEq, Repr

/-! ### Still unit (09) -/

/-- What the compositor answers about one window (R144). -/
structure WinSource where
  cam : CamId
  slot : Option SlotId
  ox : Nat
  oy : Nat
deriving DecidableEq, Repr

/-- The sources of a copy: one window in FULL, two in SPLIT. -/
inductive Sources | full (first : WinSource) | split (first second : WinSource)
deriving DecidableEq, Repr

/-- The source description of a still. -/
structure SourceDesc where
  sources : Sources
  seq1 : Option Nat
  seq2 : Option Nat
  completed : Option Time
deriving DecidableEq, Repr

/-- A copy record: the output, the requester number and the node code of the master that asked. -/
structure CopyRecord where
  output : OutId
  requester : ReqSlot
  node : Byte
deriving DecidableEq, Repr

structure Still where
  valid : Bool
  pixels : RowStore
  desc : Option SourceDesc
  completed : Nat
  cancelled : Nat
  aborted : Nat
deriving DecidableEq, Repr

/-- The copier is COPYING exactly while a copy runs; `waiting` is the pending list. -/
structure StillUnit where
  stills : PerOut Still
  running : Option (CopyRecord × Sources)
  waiting : List CopyRecord
deriving DecidableEq, Repr

/-! ### Message interface (10) -/

inductive BusState | joining | errorActive | errorPassive | busOff
deriving DecidableEq, Repr

/-- The result codes, in the order of their numbers 0–16. -/
inductive Result
  | ok | granted | waiting | clamped | unknownRequester | badField | notHeld | busy | lowPriority | notFrozen
  | frozen | cancelled | aborted | locked | readOnly | badParam | noFrame
deriving DecidableEq, Repr

/-- The "what" of a REQUEST RESULT, in the order of its numbers 0–4. -/
inductive What | request | release | freeze | unfreeze | command
deriving DecidableEq, Repr

/-- The fault codes 1–8 (R199). -/
inductive FaultCode
  | linkLost | linkFailed | frameMalformed | overrun | encoderSlip | encoderStopped | requestExpired | outboundDrop
deriving DecidableEq, Repr

/-- An entry of the outbound queue. The kinds whose bytes are fixed at queueing carry their contents; the reports carry
their subject alone (R195). -/
inductive Message where
  | requestResult (node target : Byte) (what : What) (result : Result)
  | viewStatus (o : OutId)
  | cameraStatus (c : CamId)
  | paramReply (node : Byte) (number : Word) (result : Result) (value : BitVec 32)
  | encoderReport (e : ChanId)
  | faultNotice (code : FaultCode) (subject : Nat) (count : Nat)
deriving DecidableEq, Repr

/-- The frame in the transmit buffer: identifier and bytes; `lastTry` marks a frame that is not offered again if its
transmission fails (R191). -/
structure TxFrame where
  ident : Nat
  data : List Byte
  lastTry : Bool
deriving DecidableEq, Repr

/-- The message interface. `recoveryRuns` counts the runs of 11 recessive bits seen in BUS_OFF (R201); `chanTurn` is the
channel the next encoder timer expiry looks at first (R197). -/
structure Interface where
  rateHigh : Bool
  idStrap : BitVec 4
  busState : BusState
  txErrors : Nat
  rxErrors : Nat
  recoveryRuns : Nat
  queue : List Message
  txBuffer : Option TxFrame
  dropPending : Bool
  viewTimer : Time
  camTimer : Time
  encTimer : Time
  camTurn : CamId
  chanTurn : ChanId
  dropCount : Nat
  busOffCount : Nat
deriving DecidableEq, Repr

/-! ### The whole part -/

/-- The part: the queue of commands that are waiting, whether the RESET line or absent power holds it (R211), the
timebase, the SETUP line, the parameters, and the blocks. -/
structure State where
  pending : List Instr
  held : Bool
  timebase : Time
  setup : Bool
  params : Params
  links : PerCam Link
  rings : PerCam Ring
  screens : PerCam Screen
  contexts : PerCam Context
  engine : Engine
  tables : PerCam PhaseTable
  channels : PerChan Channel
  outputs : PerOut Compositor
  arbiter : Arbiter
  stillUnit : StillUnit
  mi : Interface
deriving DecidableEq, Repr

/-! ### Right after power-on -/

/-- The defaults of a camera's parameters (R203). -/
def CamParams.default : CamParams where
  linkEnable := true
  linkRate := 25000
  tapOverride := -1
  tapUpdateFrames := 16
  tapGate := true
  concealLimit := 24
  nominalX := 48
  nominalY := 32
  phaseSource := .none
  exposureDelay := 0
  searchRx := 8
  searchRy := 6
  matchRatio := 24
  acceptRatio := 160
  holdLimit := 15
  refreshCount := 60
  driftShift := 5
  learnShift := 3
  minConf := 4
  outlierLimit := 64
  staleLimit := 300

/-- The defaults of an encoder channel's parameters (R203), given the three that differ between channels. -/
def ChanParams.default (mode : ChanMode) (cpr : Nat) (indexMode : IndexMode) : ChanParams where
  enable := false
  mode := mode
  edge := .x4
  hysteresis := true
  cpr := cpr
  indexMode := indexMode
  indexValue := 0
  captureHold := false
  clearReload := false
  slipTol := 1
  minPeriod := 2000
  maxPeriod := 2000000
  outThreshold := 800
  inThreshold := 600

/-- The defaults of all parameters (R203). -/
def Params.default : Params where
  cams := .same .default
  chans := ⟨.default .modular 360 .every, .default .modular 400 .every, .default .linear 360 .once⟩
  outs := ⟨⟨.full, .cam0, .cam1, 60⟩, ⟨.full, .cam1, .cam0, 60⟩⟩
  dwell := 800
  keepalive := 1000
  augerOutput := .a
  augerCamera := .cam1
  augerPriority := 4
  nodeCode := ⟨0x10, 0x11, 0x12, 0, 0, 0⟩
  maxPriority := ⟨7, 5, 3, 7, 7, 7⟩

/-- A link after power-on (R23): ACQUIRE with attempts 0 (LINK_ENABLE defaults to 1), its reference unlocked. -/
def Link.initial : Link where
  state := .acquire
  attempts := 0
  timerStart := 0
  gateRate := 0
  wordClocks := 0
  refLocked := false
  offered := 0
  tap := 0
  updatePending := false
  framesSinceUpdate := 0
  consecMalformed := 0
  progress := .none
  nextPos := 0
  lastGood := none
  openLine := none
  concealed := 0
  lastFrameCounter := 0
  lossCount := 0
  failureCount := 0
  malformedRunCount := 0

/-- An encoder channel after power-on (R47), its accepted levels the first ones sampled (R24). -/
def Channel.initial (levels : EncLevels) : Channel where
  state := .disabled
  position := 0
  lastDir := .up
  dirChange := false
  armed := false
  captureCount := 0
  captureTime := 0
  captureHeld := false
  lastIndex := none
  period := none
  auger := .unknown
  slipCount := 0
  quadErrorCount := 0
  glitchCount := 0
  saturationCount := 0
  stopCount := 0
  levels := levels

/-- A slot after power-on (R68). Its profiles are empty lists: DESIGN CHOICE (log entry 36). -/
def Slot.initial : Slot where
  state := .free
  pins := 0
  record := none
  profiles := ⟨[], []⟩
  pixels := []

/-- A ring after power-on (R68). -/
def Ring.initial : Ring where
  slots := .same .initial
  order := []
  seqCounter := 0
  received := 0
  malformed := 0
  rejected := 0
  forced := 0
  overruns := 0
  superseded := 0
  aborted := 0

/-- A camera's screening state after power-on (R83). -/
def Screen.initial : Screen where
  clearRef := 0
  rejectedRun := 0
  lastQ := 0
  lastVerdict := .none

/-- A motion context after power-on (R107). -/
def Context.initial : Context where
  reference := none
  refOff := .same 0
  drift := .same 0
  lastS := .same 0
  validRun := 0
  invalidRun := 0
  refreshPending := false
  refLost := false
  lastResult := none
  jobs := 0
  edges := 0
  poors := 0
  refreshes := 0

/-- A bin that a clear has emptied (R123). -/
def Bin.empty : Bin where
  value := .same 0
  conf := .same 0

/-- A phase table after power-on (R128). -/
def PhaseTable.initial : PhaseTable where
  bins := List.replicate Config.bins .empty
  lastPhase := none
  learnCount := 0
  outlierCount := 0
  clearCount := 0

/-- A window after power-on (R150). -/
def Window.initial (c : CamId) : Window where
  cam := c
  slot := none
  ox := 0
  oy := 0
  border := .noSignal

/-- A compositor after power-on (R150): its first output frame start falls at once and equals this state (R211). -/
def Compositor.initial (camA camB : CamId) : Compositor where
  grant := none
  shown := .full camA
  win1 := .initial camA
  win2 := .initial camB
  frozen := false
  mode := .liveView
  frameStart := 0
  rasterStart := 0
  rasterRate := 60
  rasterPhase := 0
  patternFresh := false
  blanked := false

/-- No entries. -/
def Requests.vacant : Requests where
  auger := Option.none
  masters := .same Option.none

/-- An output without holder after power-on (R173). -/
def OutGrant.initial : OutGrant where
  holder := none
  grantTime := 0
  dwellRunning := false
  candidate := none
  grantCount := 0
  grantOrder := 0

/-- The arbiter after power-on (R173). -/
def Arbiter.initial : Arbiter where
  lastHeard := .same none
  expiryCount := .same 0
  table := ⟨.vacant, .vacant⟩
  outs := ⟨.initial, .initial⟩
  receipts := 0

/-- A still after power-on (R185). -/
def Still.initial : Still where
  valid := false
  pixels := []
  desc := none
  completed := 0
  cancelled := 0
  aborted := 0

/-- The still unit after power-on (R185). -/
def StillUnit.initial : StillUnit where
  stills := ⟨.initial, .initial⟩
  running := none
  waiting := []

/-- The message interface after power-on (R202): JOINING, with VIEW STATUS of A and of B queued. -/
def Interface.initial (rateHigh : Bool) (idStrap : BitVec 4) : Interface where
  rateHigh := rateHigh
  idStrap := idStrap
  busState := .joining
  txErrors := 0
  rxErrors := 0
  recoveryRuns := 0
  queue := [.viewStatus .a, .viewStatus .b]
  txBuffer := none
  dropPending := false
  viewTimer := 0
  camTimer := 0
  encTimer := 0
  camTurn := .cam0
  chanTurn := .ec0
  dropCount := 0
  busOffCount := 0

/-- The part at the moment it starts (R211), with the pin levels it then finds. -/
def State.start (l : BootLevels) : State where
  pending := []
  held := false
  timebase := 0
  setup := l.setup
  params := .default
  links := .same .initial
  rings := .same .initial
  screens := .same .initial
  contexts := .same .initial
  engine := ⟨none, []⟩
  tables := .same .initial
  channels := l.encoders.map Channel.initial
  outputs := ⟨.initial .cam0 .cam1, .initial .cam1 .cam0⟩
  arbiter := .initial
  stillUnit := .initial
  mi := .initial l.rateHigh l.idStrap

/-- Every pin low: the levels taken for `State.reset`. DESIGN CHOICE (log entry 1), unsafe: the straps, SETUP and encoder
levels of an installed part are the board's. -/
def lowLevels : BootLevels where
  rateHigh := false
  idStrap := 0
  setup := false
  encoders := ⟨⟨false, false, false⟩, ⟨false, false, false⟩, ⟨false, false, false⟩⟩

/-- The machine right after reset (R211), with nothing waiting in the queue. -/
def State.reset : State := .start lowLevels

end Sys2Proof.Machine
end

