-- ==== Sys2Proof/Machine/Ops.lean ====
section
/-! DEFINITION. The shared operations: the manual's arithmetic, timers, the line check, pixel rows, the named updates of
the state, asking for an outbound message, and the slot, pin and list operations of the frame store. -/

namespace Sys2Proof.Machine

/-! ### Arithmetic (Conventions, "Arithmetic") -/

/-- One more on a diagnostic counter, which saturates at 65,535. -/
def bump (n : Nat) : Nat := min (n + 1) 65535

/-- clamp(v, lo, hi). -/
def clamp (v lo hi : Int) : Int := if v < lo then lo else if hi < v then hi else v

/-- nearest(n / d) for a positive d: the nearest integer, halves away from zero. (`/` on `Int` by a positive divisor is
floor division.) -/
def nearest (n d : Int) : Int :=
  if 0 ≤ n then (2 * n + d) / (2 * d) else -((2 * -n + d) / (2 * d))

/-- |a − b| of two naturals. -/
def absDiff (a b : Nat) : Nat := (a - b) + (b - a)

/-- The sum of |aᵢ − bᵢ| over two lists side by side. -/
def sumAbsDiff (as bs : List Nat) : Nat := (List.zipWith absDiff as bs).sum

/-! ### Time (R1) -/

/-- The µs from `since` to `now`, a difference of two timestamps taken modulo 2^32. -/
def elapsed (since now : Time) : Nat := (now - since).toNat

/-- Whether `us` µs have passed since `since`. -/
def due (since now : Time) (us : Nat) : Bool := us ≤ elapsed since now

/-- One microsecond of the timebase; while the part is held it has none (R211). -/
def tick (s : State) : State :=
  if s.held then s else { s with timebase := s.timebase + 1 }

/-! ### The line check (R3) -/

/-- One bit into the CRC with generator x^16 + x^12 + x^5 + 1. -/
def crcBit (crc : Word) (bit : Bool) : Word :=
  if crc.msb != bit then (crc <<< 1) ^^^ 0x1021#16 else crc <<< 1

/-- One byte into the CRC, most significant bit first. -/
def crcByte (crc : Word) (b : Byte) : Word :=
  [7, 6, 5, 4, 3, 2, 1, 0].foldl (fun c i => crcBit c (b.getLsbD i)) crc

/-- The high byte of a link word: a pixel word's luma. -/
def highByte (w : Word) : Byte := w.extractLsb' 8 8

/-- The low byte of a link word. -/
def lowByte (w : Word) : Byte := w.extractLsb' 0 8

/-- One pixel word into the CRC, high byte first. -/
def crcWord (crc : Word) (w : Word) : Word := crcByte (crcByte crc (highByte w)) (lowByte w)

/-- The luma of a pixel. -/
def luma (w : Word) : Nat := (highByte w).toNat

/-! ### Pixel rows -/

/-- The row an unwritten row of a buffer of this width reads as: black. DESIGN CHOICE (log entry 2). -/
def blackRow (width : Nat) : List Word := List.replicate width Config.black

/-- The row `y` of a buffer. -/
def RowStore.read (m : RowStore) (width y : Nat) : List Word :=
  match m with
  | [] => blackRow width
  | (k, row) :: rest => if k = y then row else RowStore.read rest width y

/-- The buffer with no entry for row `y`. -/
def RowStore.erase (m : RowStore) (y : Nat) : RowStore := m.filter (fun e => e.1 ≠ y)

/-- The buffer with row `y` listed, in its place in the order of rows. -/
def RowStore.put (m : RowStore) (y : Nat) (row : List Word) : RowStore :=
  match m with
  | [] => [(y, row)]
  | (k, r) :: rest =>
    if y < k then (y, row) :: (k, r) :: rest
    else if y = k then (y, row) :: rest
    else (k, r) :: RowStore.put rest y row

/-- The buffer with `row` written as row `y`; a row that reads as unwritten is not listed. -/
def RowStore.write (m : RowStore) (width y : Nat) (row : List Word) : RowStore :=
  if row = blackRow width then RowStore.erase m y else RowStore.put m y row

/-- The canonical form: row numbers strictly rising, no row listed that reads as unwritten. -/
def RowStore.wf (width : Nat) (m : RowStore) : Bool :=
  decide ((m.map (·.1)).Pairwise (· < ·)) && m.all (fun e => decide (e.2 ≠ blackRow width))

/-- The pixel at column `x`, row `y`. -/
def RowStore.pixel (m : RowStore) (width x y : Nat) : Word :=
  (RowStore.read m width y).getD x Config.black

/-! ### The state's parts -/

def State.link (s : State) (c : CamId) : Link := s.links.get c
def State.ring (s : State) (c : CamId) : Ring := s.rings.get c
def State.screen (s : State) (c : CamId) : Screen := s.screens.get c
def State.context (s : State) (c : CamId) : Context := s.contexts.get c
def State.table (s : State) (c : CamId) : PhaseTable := s.tables.get c
def State.channel (s : State) (e : ChanId) : Channel := s.channels.get e
def State.output (s : State) (o : OutId) : Compositor := s.outputs.get o
def State.camParams (s : State) (c : CamId) : CamParams := s.params.cams.get c
def State.chanParams (s : State) (e : ChanId) : ChanParams := s.params.chans.get e
def State.outParams (s : State) (o : OutId) : OutParams := s.params.outs.get o
def State.slot (s : State) (c : CamId) (k : SlotId) : Slot := (s.ring c).slots.get k
def State.outGrant (s : State) (o : OutId) : OutGrant := s.arbiter.outs.get o
def State.requests (s : State) (o : OutId) : Requests := s.arbiter.table.get o
def State.still (s : State) (o : OutId) : Still := s.stillUnit.stills.get o

def State.setLink (s : State) (c : CamId) (v : Link) : State := { s with links := s.links.set c v }
def State.setRing (s : State) (c : CamId) (v : Ring) : State := { s with rings := s.rings.set c v }
def State.setScreen (s : State) (c : CamId) (v : Screen) : State := { s with screens := s.screens.set c v }
def State.setContext (s : State) (c : CamId) (v : Context) : State := { s with contexts := s.contexts.set c v }
def State.setEngine (s : State) (v : Engine) : State := { s with engine := v }
def State.setTable (s : State) (c : CamId) (v : PhaseTable) : State := { s with tables := s.tables.set c v }
def State.setChannel (s : State) (e : ChanId) (v : Channel) : State := { s with channels := s.channels.set e v }
def State.setOutput (s : State) (o : OutId) (v : Compositor) : State := { s with outputs := s.outputs.set o v }
def State.setArbiter (s : State) (v : Arbiter) : State := { s with arbiter := v }
def State.setStillUnit (s : State) (v : StillUnit) : State := { s with stillUnit := v }
def State.setMi (s : State) (v : Interface) : State := { s with mi := v }
def State.setParams (s : State) (v : Params) : State := { s with params := v }

def State.setSlot (s : State) (c : CamId) (k : SlotId) (v : Slot) : State :=
  s.setRing c { s.ring c with slots := (s.ring c).slots.set k v }
def State.setOutGrant (s : State) (o : OutId) (v : OutGrant) : State :=
  s.setArbiter { s.arbiter with outs := s.arbiter.outs.set o v }
def State.setRequests (s : State) (o : OutId) (v : Requests) : State :=
  s.setArbiter { s.arbiter with table := s.arbiter.table.set o v }
def State.setStill (s : State) (o : OutId) (v : Still) : State :=
  s.setStillUnit { s.stillUnit with stills := s.stillUnit.stills.set o v }

/-! ### Asking for a message (R192, R193) -/

/-- The key of a queue entry: its kind and subject. -/
inductive MessageKey where
  | requestResult (node target : Byte) (what : What)
  | viewStatus (o : OutId)
  | cameraStatus (c : CamId)
  | paramReply (node : Byte) (number : Word)
  | encoderReport (e : ChanId)
  | faultNotice (code : FaultCode) (subject : Nat)
deriving DecidableEq, Repr

/-- The key of a message (R192). -/
def Message.key : Message → MessageKey
  | .requestResult node target what _ => .requestResult node target what
  | .viewStatus o => .viewStatus o
  | .cameraStatus c => .cameraStatus c
  | .paramReply node number _ _ => .paramReply node number
  | .encoderReport e => .encoderReport e
  | .faultNotice code subject _ => .faultNotice code subject

/-- Whether an entry with the key of `m` is in the queue. -/
def queued (m : Message) (q : List Message) : Bool := q.any (fun e => e.key = m.key)

/-- The queue with `m` in the place of the entry of its key. -/
def replaceIn (m : Message) (q : List Message) : List Message :=
  q.map (fun e => if e.key = m.key then m else e)

/-- The OUTBOUND_DROP notice with a drop count (R193). -/
def dropNotice (count : Nat) : Message := .faultNotice .outboundDrop 0 count

/-- Place a message asked for in the outbound queue: in the place of the entry with its key, at the tail while fewer
than eight wait, or dropped (R192); a drop owes an OUTBOUND_DROP notice, by the one already queued or by drop-pending
(R193). -/
def Interface.place (mi : Interface) (m : Message) : Interface :=
  if queued m mi.queue then { mi with queue := replaceIn m mi.queue }
  else if mi.queue.length < 8 then { mi with queue := mi.queue ++ [m] }
  else
    let count := bump mi.dropCount
    if queued (dropNotice count) mi.queue then
      { mi with dropCount := count, queue := replaceIn (dropNotice count) mi.queue }
    else { mi with dropCount := count, dropPending := true }

/-- Ask the message interface for a message. -/
def State.ask (s : State) (m : Message) : State := s.setMi (s.mi.place m)

/-- Ask for a fault notice with the count its block holds (R199). -/
def State.notice (s : State) (code : FaultCode) (subject count : Nat) : State :=
  s.ask (.faultNotice code subject count)

/-- Answer a request, release, freeze, unfreeze or command (R188). -/
def State.answer (s : State) (node target : Byte) (what : What) (result : Result) : State :=
  s.ask (.requestResult node target what result)

/-! ### Slots, pins and the capture-order list (R48–R51) -/

/-- The slot, with one more pin (R50). -/
def Slot.pin (k : Slot) : Slot := { k with pins := k.pins + 1 }
/-- The slot, with one pin fewer; a count of 0 stays 0 (R50). -/
def Slot.unpin (k : Slot) : Slot := { k with pins := k.pins - 1 }
/-- The slot, FREE: it holds nothing usable (R48). Its profiles and pixels stay as they are: DESIGN CHOICE (log entry 36). -/
def Slot.freed (k : Slot) : Slot := { k with state := .free, record := none }

def State.pinSlot (s : State) (c : CamId) (k : SlotId) : State := s.setSlot c k (s.slot c k).pin
def State.unpinSlot (s : State) (c : CamId) (k : SlotId) : State := s.setSlot c k (s.slot c k).unpin

/-- The camera's FILLING slot, if it has one (at most one, R48). -/
def Ring.filling? (r : Ring) : Option SlotId :=
  SlotId.all.find? (fun k => (r.slots.get k).state = .filling)

/-- The camera's newest READY slot: the READY slot latest in the capture-order list (R51). -/
def Ring.newestReady? (r : Ring) : Option SlotId :=
  r.order.reverse.find? (fun k => (r.slots.get k).state = .ready)

/-- A slot becomes FREE and leaves the capture-order list (R49). -/
def Ring.free (r : Ring) (k : SlotId) : Ring :=
  { r with slots := r.slots.set k (r.slots.get k).freed, order := r.order.filter (· ≠ k) }

/-- The record of the camera's newest READY frame, if any (R66). -/
def State.newestRecord? (s : State) (c : CamId) : Option Record :=
  match (s.ring c).newestReady? with
  | none => none
  | some k => (s.slot c k).record

/-! ### The axes -/

/-- The bound B of displacements: 48 across, 32 down. -/
def axisBound : Axis → Int
  | .x => 48 | .y => 32
/-- The first profile position the measures read: column 48, row 32. -/
def axisFirst : Axis → Nat
  | .x => 48 | .y => 32
/-- How many profile positions the measures read: columns 48 … 751, rows 32 … 447. -/
def axisSpan : Axis → Nat
  | .x => 704 | .y => 416

end Sys2Proof.Machine
end

