-- ==== Sys2Proof/Machine/Flags.lean ====
section
/-! DEFINITION. Codes and status bytes: the numbers that states, verdicts, results and kinds carry in messages and
status parameters, and the bytes of every outbound kind (chapter Message Interface, "Message layouts"). -/

namespace Sys2Proof.Machine

/-! ### Codes -/

def LinkState.code : LinkState → Nat
  | .down => 0 | .acquire => 1 | .verify => 2 | .locked => 3 | .failed => 4
def ChanState.code : ChanState → Nat
  | .disabled => 0 | .unhomed => 1 | .homed => 2 | .running => 3 | .stopped => 4 | .slipped => 5
def Dir.code : Dir → Nat
  | .up => 0 | .down => 1
def AugerState.code : AugerState → Nat
  | .unknown => 0 | .inside => 1 | .outside => 2
def SlotState.code : SlotState → Nat
  | .free => 0 | .filling => 1 | .scored => 2 | .ready => 3
def ScreenVerdict.code : ScreenVerdict → Nat
  | .none => 0 | .accepted => 1 | .forced => 2 | .rejected => 3
/-- Verdict codes of a record: 0 none, 1 ACCEPTED, 2 FORCED. -/
def verdictCode : Option Verdict → Nat
  | none => 0 | some .accepted => 1 | some .forced => 2
/-- Axis result codes 1–5. -/
def AxisResult.code : AxisResult → Nat
  | .valid => 1 | .edge => 2 | .poor => 3 | .notRun => 4 | .reference => 5
def Border.code : Border → Nat
  | .live => 0 | .forced => 1 | .held => 2 | .stale => 3 | .noSignal => 4 | .frozen => 5
def Layout.code : Layout → Nat
  | .full => 0 | .split => 1
def BusState.code : BusState → Nat
  | .joining => 0 | .errorActive => 1 | .errorPassive => 2 | .busOff => 3
def DisplayMode.code : DisplayMode → Nat
  | .liveView => 0 | .still => 1
def Result.code : Result → Nat
  | .ok => 0 | .granted => 1 | .waiting => 2 | .clamped => 3 | .unknownRequester => 4 | .badField => 5
  | .notHeld => 6 | .busy => 7 | .lowPriority => 8 | .notFrozen => 9 | .frozen => 10 | .cancelled => 11
  | .aborted => 12 | .locked => 13 | .readOnly => 14 | .badParam => 15 | .noFrame => 16
def What.code : What → Nat
  | .request => 0 | .release => 1 | .freeze => 2 | .unfreeze => 3 | .command => 4
def FaultCode.code : FaultCode → Nat
  | .linkLost => 1 | .linkFailed => 2 | .frameMalformed => 3 | .overrun => 4
  | .encoderSlip => 5 | .encoderStopped => 6 | .requestExpired => 7 | .outboundDrop => 8

/-! ### Views -/

def View.layout : View → Layout
  | .full _ => .full | .split _ _ => .split
/-- The first window's camera. -/
def View.camA : View → CamId
  | .full c => c | .split c _ => c
/-- The second window's camera, absent in FULL. -/
def View.camB? : View → Option CamId
  | .full _ => none | .split _ c => some c
/-- Camera B as VIEW STATUS carries it: in FULL it repeats camera A (R146). -/
def View.camBReported (v : View) : CamId := v.camB?.getD v.camA

/-- Border B as VIEW STATUS carries it: in FULL it repeats border A (R146). -/
def Compositor.borderB (oc : Compositor) : Border :=
  match oc.shown with
  | .full _ => oc.win1.border
  | .split _ _ => oc.win2.border

/-! ### The arbiter's answers (R171) -/

/-- A requester's entry among those of an output. -/
def Requests.get (t : Requests) : Requester → Option Entry
  | .auger => t.auger
  | .master k => t.masters.get k

/-- The entry of an output's holder. -/
def State.holderEntry? (s : State) (o : OutId) : Option Entry :=
  match (s.outGrant o).holder with
  | none => none
  | some r => (s.requests o).get r

/-- The priority of an output's holder, 0 when the output shows its default view. -/
def State.holderPriority (s : State) (o : OutId) : Nat :=
  match s.holderEntry? o with
  | none => 0
  | some e => e.priority

/-! ### Message bytes -/

/-- The `i`-th byte of a number, least significant first. -/
def byteOf (n i : Nat) : Byte := BitVec.ofNat 8 (n / 256 ^ i)

/-- Two bytes, little-endian. -/
def bytes2 (n : Nat) : List Byte := [byteOf n 0, byteOf n 1]

/-- A signed quantity in two bytes, two's complement, little-endian. -/
def signed2 (v : Int) : List Byte := bytes2 (BitVec.ofInt 16 v).toNat

/-- A 32-bit quantity in four bytes, little-endian. -/
def bytes4 (v : BitVec 32) : List Byte := [byteOf v.toNat 0, byteOf v.toNat 1, byteOf v.toNat 2, byteOf v.toNat 3]

/-- The identifier offset of an outbound kind (R186). -/
def Message.offset : Message → Nat
  | .requestResult .. => 8
  | .viewStatus _ => 9
  | .cameraStatus _ => 10
  | .paramReply .. => 11
  | .encoderReport _ => 12
  | .faultNotice .. => 13

/-- The base identifier: 0x200 + 32 × the identifier strap value (R186). -/
def Interface.base (mi : Interface) : Nat := 0x200 + 32 * mi.idStrap.toNat

/-- The VIEW STATUS of an output: holder and priority from the arbiter, view and borders from the compositor. -/
def viewStatusBytes (s : State) (o : OutId) : List Byte :=
  let oc := s.output o
  let holder := match (s.outGrant o).holder with
    | none => 0xFF
    | some r => r.num
  [byteOf o.num 0, byteOf holder 0, byteOf oc.shown.layout.code 0, byteOf oc.shown.camA.num 0,
    byteOf oc.shown.camBReported.num 0, byteOf oc.win1.border.code 0, byteOf oc.borderB.code 0,
    byteOf (s.holderPriority o) 0]

/-- The verdict-and-results byte of CAMERA STATUS: bits 0–1 verdict, bits 2–4 x result, bits 5–7 y result. -/
def verdictByte (r : Record) : Nat :=
  let res (ax : Axis) : Nat := match r.meas with
    | none => 0
    | some m => (m.get ax).result.code
  verdictCode r.verdict + 4 * res .x + 32 * res .y

/-- The CAMERA STATUS of a camera (R195): zeros for the frame's items when the camera has no newest READY frame. -/
def cameraStatusBytes (s : State) (c : CamId) : List Byte :=
  let head := [byteOf c.num 0, byteOf (s.link c).state.code 0]
  let run := byteOf (s.screen c).rejectedRun 0
  match s.newestRecord? c with
  | none => head ++ [0, run] ++ signed2 0 ++ signed2 0
  | some r =>
    let sh := r.shift.getD (.same 0)
    head ++ [byteOf (verdictByte r) 0, run] ++ signed2 sh.x ++ signed2 sh.y

/-- The ENCODER REPORT of a channel (R195): the period in units of 100 µs, 0 when invalid. -/
def encoderReportBytes (s : State) (e : ChanId) : List Byte :=
  let ch := s.channel e
  [byteOf e.num 0, byteOf (ch.state.code + 16 * ch.auger.code) 0] ++ bytes4 (BitVec.ofInt 32 ch.position) ++
    bytes2 (ch.period.getD 0 / 100)

/-- The bytes of a message taken into the transmit buffer in this state (R195). -/
def messageBytes (s : State) : Message → List Byte
  | .requestResult node target what result =>
    [node, target, byteOf what.code 0, byteOf result.code 0]
  | .viewStatus o => viewStatusBytes s o
  | .cameraStatus c => cameraStatusBytes s c
  | .paramReply node number result value =>
    [node] ++ bytes2 number.toNat ++ [byteOf result.code 0] ++ bytes4 value
  | .encoderReport e => encoderReportBytes s e
  | .faultNotice code subject count =>
    [byteOf code.code 0, byteOf subject 0] ++ bytes2 count

/-- The subject bytes of a message (R192), in their order. -/
def Message.subjectBytes : Message → List Byte
  | .requestResult node target what _ => [node, target, byteOf what.code 0]
  | .viewStatus o => [byteOf o.num 0]
  | .cameraStatus c => [byteOf c.num 0]
  | .paramReply node number _ _ => [node] ++ bytes2 number.toNat
  | .encoderReport e => [byteOf e.num 0]
  | .faultNotice code subject _ => [byteOf code.code 0, byteOf subject 0]

/-- Bytes as one number, least significant first. -/
def littleEndian : List Byte → Nat
  | [] => 0
  | b :: rest => b.toNat + 256 * littleEndian rest

/-- A queue entry as its status item reads (R209): the identifier offset times 2^24 plus the subject bytes, taken as a
little-endian field. DEDUCED (log entry 9). -/
def Message.statusCode (m : Message) : Nat := m.offset * 2 ^ 24 + littleEndian m.subjectBytes

end Sys2Proof.Machine
end

