-- ==== Sys2Proof/Machine/Bus.lean ====
section
/-! DEFINITION. The CAN controller and the way every command is taken: the taking of the queue's head into the transmit
buffer (R194), error counts and bus states (R200, R201), the sender of a message (R151, R152, R188), and the meanings of
the bus commands and of the report timers (R196, R197). -/

namespace Sys2Proof.Machine

/-! ### The transmit side -/

/-- Whether the controller transmits and receives: in ERROR_ACTIVE and ERROR_PASSIVE (R200). JOINING and BUS_OFF do
neither; for JOINING that is DEDUCED (log entry 7). -/
def Interface.onBus (mi : Interface) : Bool :=
  match mi.busState with
  | .errorActive => true
  | .errorPassive => true
  | .joining => false
  | .busOff => false

/-- The bytes of a message with its identifier, as the buffer holds it. -/
def txFrame (s : State) (m : Message) : TxFrame := ⟨s.mi.base + m.offset, messageBytes s m, false⟩

/-- What is owed the tail when an entry leaves the queue: the OUTBOUND_DROP notice while drop-pending is set (R193). -/
def Interface.owed (mi : Interface) : List Message :=
  if mi.dropPending then [dropNotice mi.dropCount] else []

/-- Take the queue's head into the transmit buffer if the buffer is empty, the controller is on the bus and the queue is
not empty (R194); an owed notice takes the freed place (R193). -/
def takeHead (s : State) : State :=
  if s.mi.onBus && s.mi.txBuffer.isNone then
    match s.mi.queue with
    | [] => s
    | m :: rest =>
      s.setMi { s.mi with
        queue := rest ++ s.mi.owed
        txBuffer := some (txFrame s m)
        dropPending := false }
  else s

/-- The next state of a command whose work is `f`: nothing while the part is held (R211); otherwise the work, and then
the taking of the queue's head, which R194 makes whenever it can be made. -/
def event (f : State → State) (s : State) : Host.Outcome State Fault Refusal :=
  if s.held then .next s else .next (takeHead (f s))

/-! ### Error counts and bus states (R200, R201) -/

/-- The bus state that two error counts give on the bus. -/
def busStateOf (tx rx : Nat) : BusState :=
  if 255 < tx then .busOff else if 127 < tx ∨ 127 < rx then .errorPassive else .errorActive

/-- The interface with new error counts; entering BUS_OFF discards the frame in the buffer, counts, and starts counting
towards recovery. -/
def Interface.withErrors (mi : Interface) (tx rx : Nat) : Interface :=
  match busStateOf tx rx with
  | .busOff =>
    { mi with
      txErrors := tx, rxErrors := rx, busState := .busOff, txBuffer := none
      busOffCount := bump mi.busOffCount, recoveryRuns := 0 }
  | b => { mi with txErrors := tx, rxErrors := rx, busState := b }

/-- A frame has been received without error (R200). -/
def Interface.frameReceived (mi : Interface) : Interface := mi.withErrors mi.txErrors (mi.rxErrors - 1)

/-- The work `f` of a frame received without error: no frame is received off the bus (R201). -/
def onReceipt (f : State → State) (s : State) : State :=
  if s.mi.onBus then f (s.setMi s.mi.frameReceived) else s

/-! ### The sender of a message (R151, R152, R188) -/

/-- The requester slot a node code matches: the lowest-numbered whose stored code equals it; code 0 matches none. -/
def State.matchNode (s : State) (node : Byte) : Option ReqSlot :=
  if node = 0 then none
  else ReqSlot.all.find? (fun k => s.params.nodeCode.get k = node.toNat)

/-- The requester has been heard now (R152). -/
def State.refresh (s : State) (k : ReqSlot) : State :=
  s.setArbiter { s.arbiter with lastHeard := s.arbiter.lastHeard.set k (some s.timebase) }

/-- An inbound message: from an unknown node `unknown` is all that happens; from a known one its last-heard time is
refreshed and `known` acts (R188). -/
def fromNode (node : Byte) (unknown : State → State) (known : ReqSlot → State → State) (s : State) : State :=
  match s.matchNode node with
  | none => unknown s
  | some k => known k (s.refresh k)

/-! ### Bus commands -/

/-- FRAME_SENT (R194, R200): the buffer is empty again and the transmit error count falls. -/
def execFrameSent (s : State) : Host.Outcome State Fault Refusal :=
  event (fun s =>
    if s.mi.onBus && s.mi.txBuffer.isSome then
      s.setMi { s.mi.withErrors (s.mi.txErrors - 1) s.mi.rxErrors with txBuffer := none }
    else s) s

/-- The transmit buffer after a failed transmission: the frame is offered again unless it had its last try (R191). -/
def Interface.afterFailure (mi : Interface) : Option TxFrame :=
  match mi.txBuffer with
  | none => none
  | some f => if f.lastTry then none else some f

/-- TRANSMIT_ERROR (R200, R201). -/
def execTransmitError (s : State) : Host.Outcome State Fault Refusal :=
  event (fun s =>
    if s.mi.onBus && s.mi.txBuffer.isSome then
      s.setMi (Interface.withErrors { s.mi with txBuffer := s.mi.afterFailure } (s.mi.txErrors + 8) s.mi.rxErrors)
    else s) s

/-- RECEIVE_ERROR (R200): the count stops at 255. -/
def execReceiveError (s : State) : Host.Outcome State Fault Refusal :=
  event (fun s =>
    if s.mi.onBus then s.setMi (s.mi.withErrors s.mi.txErrors (min (s.mi.rxErrors + 1) 255)) else s) s

/-- BUS_JOIN (R200). -/
def execBusJoin (s : State) : Host.Outcome State Fault Refusal :=
  event (fun s => if s.mi.busState = .joining then s.setMi { s.mi with busState := .errorActive } else s) s

/-- BUS_OFF_RECOVERY (R201): `runs` more runs of 11 recessive bits have been seen; at the 128th the controller
recovers. -/
def execBusOffRecovery (runs : Nat) (s : State) : Host.Outcome State Fault Refusal :=
  event (fun s =>
    if s.mi.busState = .busOff then
      if 128 ≤ s.mi.recoveryRuns + runs then
        s.setMi { s.mi with txErrors := 0, rxErrors := 0, busState := .errorActive, recoveryRuns := 0 }
      else s.setMi { s.mi with recoveryRuns := s.mi.recoveryRuns + runs }
    else s) s

/-! ### Report timers (R196, R197) -/

/-- VIEW_STATUS_TIMER: due 500 ms after its last start or expiry. -/
def execViewStatusTimer (s : State) : Host.Outcome State Fault Refusal :=
  event (fun s =>
    if due s.mi.viewTimer s.timebase 500000 then
      ((s.setMi { s.mi with viewTimer := s.mi.viewTimer + 500000 }).ask (.viewStatus .a)).ask (.viewStatus .b)
    else s) s

/-- CAMERA_TIMER: due 250 ms after its last start or expiry; the turn moves on. -/
def execCameraTimer (s : State) : Host.Outcome State Fault Refusal :=
  event (fun s =>
    if due s.mi.camTimer s.timebase 250000 then
      (s.setMi { s.mi with camTimer := s.mi.camTimer + 250000, camTurn := s.mi.camTurn.next }).ask
        (.cameraStatus s.mi.camTurn)
    else s) s

/-- The first enabled channel in turn (R197). -/
def State.enabledInTurn (s : State) : Option ChanId :=
  [s.mi.chanTurn, s.mi.chanTurn.next, s.mi.chanTurn.next.next].find? (fun e => (s.chanParams e).enable)

/-- ENCODER_TIMER: due 250 ms after its last start or expiry; with no channel enabled the turn stays. -/
def execEncoderTimer (s : State) : Host.Outcome State Fault Refusal :=
  event (fun s =>
    if due s.mi.encTimer s.timebase 250000 then
      let s' := s.setMi { s.mi with encTimer := s.mi.encTimer + 250000 }
      match s.enabledInTurn with
      | none => s'
      | some e => (s'.setMi { s'.mi with chanTurn := e.next }).ask (.encoderReport e)
    else s) s

end Sys2Proof.Machine
end

