-- ==== Sys2Proof/Machine/Phase.lean ====
section
/-! DEFINITION. Phase correction tables (06): the phase of a frame, the prediction, learning, and the clear. -/

namespace Sys2Proof.Machine

/-- The channel a PHASE_SOURCE names. -/
def PhaseSource.chan? : PhaseSource → Option ChanId
  | .none => Option.none
  | .ec0 => some .ec0
  | .ec1 => some .ec1

/-! ### Phase of a frame -/

/-- The lead in counts (R111): nearest(EXPOSURE_DELAY × CPR / T_rev), negated when the last direction is DOWN. -/
def leadOf (delay : Int) (cpr period : Nat) (dir : Dir) : Int :=
  match dir with
  | .up => nearest (delay * cpr) period
  | .down => -nearest (delay * cpr) period

/-- (snapshot position + lead) modulo CPR (R112). -/
def phaseAt (position lead : Int) (cpr : Nat) : Nat := ((position + lead) % (cpr : Int)).toNat

/-- The bins of a phase (R113, R114). -/
def phaseInfo (cpr phase : Nat) : PhaseInfo where
  phase := phase
  b0 := phase * 32 / cpr
  b1 := (phase * 32 / cpr + 1) % 32
  bn := (nearest (phase * 32) cpr).toNat % 32

/-- The place f of a phase within its bin, in sixteenths (R113). -/
def binFraction (cpr phase : Nat) : Nat := phase * 512 / cpr % 16

/-- The CPR of the channel a camera's PHASE_SOURCE names. -/
def State.boundCpr (s : State) (c : CamId) : Nat :=
  match (s.camParams c).phaseSource.chan? with
  | none => 0
  | some e => (s.chanParams e).cpr

/-- The phase a phase event of camera `c` derives from a record's snapshot, or none when it is invalid (R109, R110). -/
def State.derivePhase (s : State) (c : CamId) (snap : Option Snapshot) : Option PhaseInfo :=
  match snap, (s.camParams c).phaseSource.chan? with
  | some sn, some e =>
    let p := s.chanParams e
    match sn.period with
    | some period =>
      if sn.state = .running ∧ p.mode = .modular then
        some (phaseInfo p.cpr (phaseAt sn.position (leadOf (s.camParams c).exposureDelay p.cpr period sn.dir) p.cpr))
      else none
    | none => none
  | _, _ => none

/-! ### Prediction -/

def PhaseTable.bin (t : PhaseTable) (k : Nat) : Bin := t.bins.getD k .empty

/-- Whether a bin is trusted on an axis (R115). -/
def Bin.trusted (b : Bin) (minConf : Nat) (ax : Axis) : Bool := minConf ≤ b.conf.get ax

/-- The prediction of an axis from the bins b0 and b1 with the fraction f (R116). -/
def predictAxis (b0 b1 : Bin) (minConf f : Nat) (ax : Axis) : Option Int :=
  let t0 := b0.value.get ax
  let t1 := b1.value.get ax
  match b0.trusted minConf ax, b1.trusted minConf ax with
  | true, true => some (t0 + (t1 - t0) * f / 16)
  | true, false => some t0
  | false, true => some t1
  | false, false => none

/-- The prediction P of a frame of camera `c` with a phase, per axis; absent with an invalid phase (R116). -/
def State.predict (s : State) (c : CamId) (info : Option PhaseInfo) : XY (Option Int) :=
  match info with
  | none => .same none
  | some i =>
    let t := s.table c
    .ofAxis (predictAxis (t.bin i.b0) (t.bin i.b1) (s.camParams c).minConf (binFraction (s.boundCpr c) i.phase))

/-- A record with what a phase event writes into it (R109). -/
def Record.withPhase (r : Record) (info : Option PhaseInfo) (p : XY (Option Int)) : Record :=
  { r with phase := info.map (·.phase), prediction := p }

/-- The table's last phase is set at every phase event (R109, R127). -/
def State.setLastPhase (s : State) (c : CamId) (info : Option PhaseInfo) : State :=
  s.setTable c { s.table c with lastPhase := info }

/-! ### Learning -/

/-- The outlier test (R119). -/
def Bin.outlier (b : Bin) (ax : Axis) (limit : Nat) (v : Int) : Bool :=
  8 ≤ b.conf.get ax && decide ((limit : Int) < |v - b.value.get ax|)

/-- The value a bin takes when it learns `v` (R120). -/
def Bin.learned (b : Bin) (ax : Axis) (shift : Nat) (v : Int) : Int :=
  let t := b.value.get ax
  if b.conf.get ax = 0 then v else t + (v - t) / 2 ^ min (b.conf.get ax) shift

/-- A bin after it is taught `v` on an axis (R119–R121). -/
def Bin.teach (b : Bin) (ax : Axis) (limit shift : Nat) (v : Int) : Bin :=
  if b.outlier ax limit v then { b with conf := b.conf.set ax (b.conf.get ax - 2) }
  else { value := b.value.set ax (b.learned ax shift v), conf := b.conf.set ax (min (b.conf.get ax + 1) 15) }

/-- A table after its bin `k` is taught `v` on an axis, with its counts (R119, R120, R126). -/
def PhaseTable.teach (t : PhaseTable) (ax : Axis) (k limit shift : Nat) (v : Int) : PhaseTable :=
  let t' := { t with bins := t.bins.set k ((t.bin k).teach ax limit shift v) }
  if (t.bin k).outlier ax limit v then { t' with outlierCount := bump t.outlierCount }
  else { t' with learnCount := bump t.learnCount }

/-- One axis of a completion teaches the table when the job had a valid phase and the axis is VALID (R118). -/
def PhaseTable.learnAxis (t : PhaseTable) (info : Option PhaseInfo) (limit shift : Nat) (meas : XY AxisMeas)
    (sh : XY Int) (ax : Axis) : PhaseTable :=
  match info with
  | none => t
  | some i => if (meas.get ax).result = .valid then t.teach ax i.bn limit shift (sh.get ax) else t

/-- The learning of a completion (R118): each axis at the bin bn fixed at the job's start. -/
def PhaseTable.learn (t : PhaseTable) (info : Option PhaseInfo) (limit shift : Nat) (meas : XY AxisMeas)
    (sh : XY Int) : PhaseTable :=
  (t.learnAxis info limit shift meas sh .x).learnAxis info limit shift meas sh .y

/-! ### Clearing -/

/-- A clear (R123, R124). -/
def PhaseTable.clear (t : PhaseTable) : PhaseTable :=
  { t with bins := List.replicate Config.bins .empty, lastPhase := none, clearCount := bump t.clearCount }

def State.clearTable (s : State) (c : CamId) : State := s.setTable c (s.table c).clear

/-- Clear the table of camera `c` if its PHASE_SOURCE names channel `e` (R124). -/
def State.clearIfBound (s : State) (e : ChanId) (c : CamId) : State :=
  if (s.camParams c).phaseSource.chan? = some e then s.clearTable c else s

/-- Clear the tables of every camera bound to channel `e` (R124). -/
def State.clearBound (s : State) (e : ChanId) : State := CamId.all.foldl (fun s c => s.clearIfBound e c) s

end Sys2Proof.Machine
end

