-- ==== Sys2Proof/Machine/Registration.lean ====
section
/-! DEFINITION. The registration engine (05): the job queue and supersession, the start of a job, the search, the applied
shift, the completion with its references, link-down, and the meaning of JOB_COMPLETION. -/

namespace Sys2Proof.Machine

/-! ### The search (R90–R92) -/

/-- The centre of an axis's search. -/
def RunningJob.centre (j : RunningJob) (ax : Axis) : Int :=
  let pc := (j.prediction.get ax).getD (j.lastS.get ax)
  clamp (nearest (pc + j.drift.get ax) 16 - j.refOff.get ax) (-axisBound ax) (axisBound ax)

/-- The lower end of the range. -/
def RunningJob.lo (j : RunningJob) (ax : Axis) : Int := max (j.centre ax - j.searchR.get ax) (-axisBound ax)
/-- The upper end of the range. -/
def RunningJob.hi (j : RunningJob) (ax : Axis) : Int := min (j.centre ax + j.searchR.get ax) (axisBound ax)

/-- The sum of absolute differences of an axis at displacement `d` (R91). -/
def sad (ax : Axis) (frame ref : List Nat) (d : Int) : Nat :=
  sumAbsDiff ((frame.drop (axisFirst ax + d).toNat).take (axisSpan ax)) ((ref.drop (axisFirst ax)).take (axisSpan ax))

/-- Whether a candidate beats another: a smaller SAD, then a smaller |d − c|, then a smaller d (R91). -/
def beats (c : Int) (new old : Int × Nat) : Bool :=
  decide (new.2 < old.2) ||
    (new.2 = old.2 && (decide (|new.1 - c| < |old.1 - c|) || (|new.1 - c| = |old.1 - c| && decide (new.1 < old.1))))

/-- The candidates lo … hi. -/
def candidates (lo hi : Int) : List Int := (List.range (hi - lo + 1).toNat).map (fun i : Nat => lo + (i : Int))

/-- The best candidate with its SAD. -/
def RunningJob.best (j : RunningJob) (ax : Axis) (frame ref : List Nat) : Int × Nat :=
  let c := j.centre ax
  (candidates (j.lo ax) (j.hi ax)).foldl
    (fun old d => if beats c (d, sad ax frame ref d) old then (d, sad ax frame ref d) else old)
    (c, sad ax frame ref c)

/-- The result of an axis from the ends of its range, its best candidate and the frame's detail Qa (R92). -/
def axisResult (lo hi : Int) (best : Int × Nat) (qa matchRatio : Nat) : AxisResult :=
  if best.1 = lo ∨ best.1 = hi then .edge
  else if qa * matchRatio < best.2 * 256 then .poor
  else .valid

/-- The frame's detail on an axis: Qx, or Q − Qx (R72, R92). -/
def Record.detail (r : Record) : Axis → Nat
  | .x => r.qx.getD 0
  | .y => r.q.getD 0 - r.qx.getD 0

/-- The measurement of a job on an axis: a search when it holds a reference copy, REFERENCE otherwise (R92, R98). -/
def RunningJob.measure (j : RunningJob) (k : Slot) (r : Record) (ax : Axis) : AxisMeas :=
  match j.reference with
  | none => ⟨.reference, none⟩
  | some ref =>
    let best := j.best ax (k.profiles.get ax) (ref.get ax)
    ⟨axisResult (j.lo ax) (j.hi ax) best (r.detail ax) j.matchRatio, some best.1⟩

/-! ### Applied shift (R94, R95, R98) -/

/-- The measurement M in q4 of a VALID axis. -/
def RunningJob.measured (j : RunningJob) (ax : Axis) (d : Int) : Int := 16 * (d + j.refOff.get ax)

/-- The new Drift of a VALID axis. -/
def RunningJob.newDrift (j : RunningJob) (ax : Axis) (shift : Nat) (d : Int) : Int :=
  j.drift.get ax + (j.measured ax d - j.drift.get ax) / 2 ^ shift

/-- The applied shift S of an axis. -/
def RunningJob.shift (j : RunningJob) (ax : Axis) (driftShift : Nat) (m : AxisMeas) : Int :=
  match m.result with
  | .valid =>
    let d := m.d.getD 0
    clamp (j.measured ax d - j.newDrift ax driftShift d) (-(16 * axisBound ax)) (16 * axisBound ax)
  | .edge => (j.prediction.get ax).getD (j.lastS.get ax)
  | .poor => (j.prediction.get ax).getD (j.lastS.get ax)
  | .notRun => (j.prediction.get ax).getD (j.lastS.get ax)
  | .reference => (j.prediction.get ax).getD 0

/-- The Drift an axis has after a completion: the new one when VALID, unchanged otherwise. -/
def RunningJob.driftAfter (j : RunningJob) (x : Context) (driftShift : Nat) (meas : XY AxisMeas) (ax : Axis) : Int :=
  match (meas.get ax).result with
  | .valid => j.newDrift ax driftShift ((meas.get ax).d.getD 0)
  | .edge => x.drift.get ax
  | .poor => x.drift.get ax
  | .notRun => x.drift.get ax
  | .reference => x.drift.get ax

/-! ### References (R97–R100) -/

/-- The context after a refresh or creation with a frame's profiles and shift S (R98, R100). -/
def Context.refreshed (x : Context) (profiles : XY (List Nat)) (sh : XY Int) : Context :=
  { x with
    reference := some profiles
    refOff := .ofAxis (fun ax => nearest (sh.get ax) 16)
    drift := .ofAxis (fun ax => 16 * nearest (sh.get ax) 16 - sh.get ax)
    validRun := 0
    invalidRun := 0
    refreshPending := false
    refreshes := bump x.refreshes }

/-- Whether both axes are VALID. -/
def bothValid (meas : XY AxisMeas) : Bool := meas.x.result = .valid && meas.y.result = .valid

/-- The run counts after a completed job (R97). -/
def Context.withRuns (x : Context) (meas : XY AxisMeas) : Context :=
  if bothValid meas then { x with validRun := min (x.validRun + 1) 250, invalidRun := 0 }
  else { x with invalidRun := min (x.invalidRun + 1) 4 }

/-- Whether a refresh is made (R99). -/
def Context.refreshDue (x : Context) (refreshCount : Nat) : Bool :=
  x.refreshPending || decide (refreshCount ≤ x.validRun) || decide (x.invalidRun = 4)

/-- How many axes have a result. -/
def countAxes (meas : XY AxisMeas) (r : AxisResult) : Nat :=
  (if meas.x.result = r then 1 else 0) + (if meas.y.result = r then 1 else 0)

/-- Step 2 of a completion, with the counts of R104. -/
def Context.withResults (x : Context) (j : RunningJob) (driftShift : Nat) (meas : XY AxisMeas) (sh : XY Int) : Context :=
  { x with
    drift := .ofAxis (j.driftAfter x driftShift meas)
    lastS := sh
    lastResult := some ⟨meas.x.result, meas.y.result⟩
    jobs := bump x.jobs
    edges := min (x.edges + countAxes meas .edge) 65535
    poors := min (x.poors + countAxes meas .poor) 65535 }

/-- Step 3 of a completion (R97–R100), replaced by nothing when the reference-lost mark is set (R103). -/
def Context.withReference (x : Context) (created : Bool) (refreshCount : Nat) (meas : XY AxisMeas)
    (profiles : XY (List Nat)) (sh : XY Int) : Context :=
  if x.refLost then x
  else if created then x.refreshed profiles sh
  else if (x.withRuns meas).refreshDue refreshCount then (x.withRuns meas).refreshed profiles sh
  else x.withRuns meas

/-! ### Job start (R87, R89) -/

/-- The record of a slot, or none. -/
def State.record? (s : State) (c : CamId) (k : SlotId) : Option Record := (s.slot c k).record

/-- The slot with its record changed. -/
def Slot.mapRecord (k : Slot) (f : Record → Record) : Slot := { k with record := k.record.map f }

/-- What a job of slot `k` of camera `c` takes at its start (R89). -/
def State.jobTaken (s : State) (job : Job) : RunningJob :=
  let x := s.context job.cam
  let p := s.camParams job.cam
  let info := s.derivePhase job.cam ((s.record? job.cam job.slot).bind (·.snapshot))
  { job := job
    phase := info
    prediction := s.predict job.cam info
    reference := x.reference
    refOff := x.refOff
    drift := x.drift
    lastS := x.lastS
    searchR := ⟨p.searchRx, p.searchRy⟩
    matchRatio := p.matchRatio }

/-- A phase event's writes for a slot (R109). -/
def State.phaseWrites (s : State) (job : Job) (info : Option PhaseInfo) (p : XY (Option Int)) : State :=
  (s.setSlot job.cam job.slot ((s.slot job.cam job.slot).mapRecord (fun r => r.withPhase info p))).setLastPhase
    job.cam info

/-- Start a job, already out of the queue (R89). -/
def State.startJob (s : State) (job : Job) : State :=
  let j := s.jobTaken job
  let s := s.phaseWrites job j.phase j.prediction
  let s := s.setContext job.cam { s.context job.cam with refLost := false }
  s.setEngine { s.engine with running := some j }

/-- When the engine is IDLE and jobs wait, start the oldest (R87). -/
def State.startNext (s : State) : State :=
  match s.engine.running, s.engine.queue with
  | none, job :: rest => (s.setEngine { s.engine with queue := rest }).startJob job
  | _, _ => s

/-! ### Hand-off and supersession (R60, R61, R85) -/

/-- A slot READY unmeasured: NOT_RUN on both axes, with the shift `sh` (R61). -/
def Slot.unmeasured (k : Slot) (sh : XY Int) : Slot :=
  { k.mapRecord (fun r => { r with meas := some (.same ⟨.notRun, none⟩), shift := some sh }) with state := .ready }

/-- One more superseded job counted (R65). -/
def Ring.countSuperseded (r : Ring) : Ring := { r with superseded := bump r.superseded }

/-- A withdrawn job's slot becomes READY unmeasured (R61). The withdrawal is a phase event and sets the table's last phase
(R109, R127), although R61 says that it does not write the phase table: DEDUCED (log entry 37). -/
def State.supersede (s : State) (job : Job) : State :=
  let c := job.cam
  let info := s.derivePhase c ((s.record? c job.slot).bind (·.snapshot))
  let p := s.predict c info
  let sh : XY Int := .ofAxis (fun ax => (p.get ax).getD ((s.context c).lastS.get ax))
  let s := s.phaseWrites job info p
  let s := s.setSlot c job.slot ((s.slot c job.slot).unmeasured sh)
  s.setRing c (s.ring c).countSuperseded

/-- Withdraw camera `c`'s waiting job, if it has one (R85). -/
def State.withdraw (s : State) (c : CamId) : State :=
  match s.engine.queue.find? (fun j => j.cam = c) with
  | none => s
  | some job => (s.setEngine { s.engine with queue := s.engine.queue.filter (fun j => j.cam ≠ c) }).supersede job

/-- The hand-off of a job (R85): withdraw the camera's waiting job, place the new one at the tail, start it if IDLE. -/
def State.handOff (s : State) (job : Job) : State :=
  let s := s.withdraw job.cam
  (s.setEngine { s.engine with queue := s.engine.queue ++ [job] }).startNext

/-! ### Completion (R96, R103) -/

/-- The measurement of a job on both axes. -/
def RunningJob.measurement (j : RunningJob) (k : Slot) (r : Record) : XY AxisMeas := .ofAxis (j.measure k r)

/-- The applied shift of a job on both axes. -/
def RunningJob.shifts (j : RunningJob) (driftShift : Nat) (meas : XY AxisMeas) : XY Int :=
  .ofAxis (fun ax => j.shift ax driftShift (meas.get ax))

/-- A slot READY with the results of its job (R62, R96). -/
def Slot.registered (k : Slot) (r : Record) (meas : XY AxisMeas) (sh : XY Int) : Slot :=
  { k with state := .ready, record := some { r with meas := some meas, shift := some sh } }

/-- A context after the completion of job `j` (R96, steps 2 and 3). -/
def Context.completed (x : Context) (j : RunningJob) (p : CamParams) (meas : XY AxisMeas) (profiles : XY (List Nat))
    (sh : XY Int) : Context :=
  (x.withResults j p.driftShift meas sh).withReference j.reference.isNone p.refreshCount meas profiles sh

/-- The completion of the running job `j` whose slot is `k` with record `r`. -/
def State.completeWith (s : State) (j : RunningJob) (k : Slot) (r : Record) : State :=
  let c := j.job.cam
  let p := s.camParams c
  let meas := j.measurement k r
  let sh := j.shifts p.driftShift meas
  let s := s.setContext c ((s.context c).completed j p meas k.profiles sh)
  let s := s.setTable c ((s.table c).learn j.phase p.outlierLimit p.learnShift meas sh)
  let s := s.setSlot c j.job.slot (k.registered r meas sh)
  (s.setEngine { s.engine with running := none }).startNext

/-- The completion of the running job, if one runs; a job's slot is SCORED and holds a record (R60). -/
def State.completeJob (s : State) : State :=
  match s.engine.running with
  | none => s
  | some j =>
    match s.record? j.job.cam j.job.slot with
    | none => (s.setEngine { s.engine with running := none }).startNext
    | some r => s.completeWith j (s.slot j.job.cam j.job.slot) r

/-- JOB_COMPLETION (R96). -/
def execJobCompletion (s : State) : Host.Outcome State Fault Refusal := event State.completeJob s

/-! ### Link-down (R102) and REF-REFRESH (R101) -/

/-- Whether a job of camera `c` is running. -/
def Engine.runs (e : Engine) (c : CamId) : Bool :=
  match e.running with
  | none => false
  | some j => decide (j.job.cam = c)

/-- Link-down at the engine: the reference is discarded and a running job of the camera marked (R102). -/
def State.engineLinkDown (s : State) (c : CamId) : State :=
  let x := s.context c
  s.setContext c { x with reference := none, refLost := x.refLost || s.engine.runs c }

/-- REF-REFRESH (R101). -/
def State.refRefresh (s : State) (c : CamId) : State :=
  s.setContext c { s.context c with refreshPending := true }

end Sys2Proof.Machine
end

