-- ==== Sys2Proof/Machine/FrameStore.lean ====
section
/-! DEFINITION. The frame store (03) and the quality screen (04): frame start with allocation, reclaim and overrun, frame
end with the screen's verdict, and link-down. -/

namespace Sys2Proof.Machine

/-! ### Frame start (R52–R56) -/

/-- The lowest-numbered FREE slot. -/
def Ring.free? (r : Ring) : Option SlotId := SlotId.all.find? (fun k => (r.slots.get k).state = .free)

/-- Reclaim (R54): the earliest READY slot of the capture-order list that is unpinned and not the newest READY. -/
def Ring.reclaim? (r : Ring) : Option SlotId :=
  r.order.find? (fun k =>
    (r.slots.get k).state = .ready && (r.slots.get k).pins = 0 && decide (r.newestReady? ≠ some k))

/-- The slot a frame start gets: the lowest FREE one, a reclaimed one, or none (R53). -/
def Ring.allocate? (r : Ring) : Option SlotId :=
  match r.free? with
  | some k => some k
  | none => r.reclaim?

/-- A frame start counted: sequence counter and frames received (R52, R53). -/
def Ring.counted (r : Ring) : Ring :=
  { r with seqCounter := (r.seqCounter + 1) % 65536, received := bump r.received }

/-- The snapshot of a channel (R45). -/
def Channel.snapshot (ch : Channel) : Snapshot := ⟨ch.position, ch.lastDir, ch.period, ch.state⟩

/-- The snapshot a frame start of camera `c` takes: absent with PHASE_SOURCE = none (R56). -/
def State.frameSnapshot (s : State) (c : CamId) : Option Snapshot :=
  (s.camParams c).phaseSource.chan?.map (fun e => (s.channel e).snapshot)

/-- A record begun at allocation (R56). -/
def Record.begun (c : CamId) (seq : Nat) (capture : Time) (snap : Option Snapshot) : Record where
  camera := c
  seq := seq
  capture := capture
  snapshot := snap
  concealed := none
  qx := none
  q := none
  verdict := none
  meas := none
  phase := none
  prediction := .same none
  shift := none

/-- The profiles of a slot at allocation: all zero (R16). -/
def zeroProfiles : XY (List Nat) :=
  ⟨List.replicate Config.frameWidth 0, List.replicate Config.frameHeight 0⟩

/-- The ring with slot `k` FILLING, its record begun, at the tail of the capture-order list (R49, R53). -/
def Ring.fill (r : Ring) (k : SlotId) (rec : Record) : Ring :=
  { r with
    slots := r.slots.set k { r.slots.get k with state := .filling, record := some rec, profiles := zeroProfiles }
    order := r.order.filter (· ≠ k) ++ [k] }

/-- Allocate the slot the store found for a frame start of camera `c`. -/
def State.fillSlot (s : State) (c : CamId) (k : SlotId) : State :=
  s.setRing c ((s.ring c).fill k (.begun c (s.ring c).seqCounter s.timebase (s.frameSnapshot c)))

/-- An overrun (R55). -/
def State.overrun (s : State) (c : CamId) : State :=
  (s.setRing c { s.ring c with overruns := bump (s.ring c).overruns }).notice .overrun c.num (bump (s.ring c).overruns)

/-! ### The quality screen (R70–R77) -/

/-- A detail measure: the sum of |P[i+1] − P[i]| over the nominal view area's positions (R71, R72). -/
def detail (ax : Axis) (profile : List Nat) : Nat :=
  let w := (profile.drop (axisFirst ax)).take (axisSpan ax)
  sumAbsDiff w.tail w

/-- Qx of a slot's profiles. -/
def Slot.qx (k : Slot) : Nat := detail .x k.profiles.x
/-- Q = Qx + Qy of a slot's profiles. -/
def Slot.q (k : Slot) : Nat := k.qx + detail .y k.profiles.y

/-- The screen's verdict on a frame's Q (R73). -/
def Screen.verdict (sc : Screen) (acceptRatio holdLimit q : Nat) : ScreenVerdict :=
  if sc.clearRef = 0 then .accepted
  else if sc.clearRef * acceptRatio ≤ q * 256 then .accepted
  else if sc.rejectedRun < holdLimit then .rejected
  else .forced

/-- ClearRef moved one sixteenth towards Q, rounded down (R75). -/
def track (clearRef q : Nat) : Nat := ((clearRef : Int) + ((q : Int) - clearRef) / 16).toNat

/-- The screening state after a frame (R74–R77). -/
def Screen.judge (sc : Screen) (acceptRatio holdLimit q : Nat) : Screen :=
  let sc' := { sc with lastQ := q, lastVerdict := sc.verdict acceptRatio holdLimit q }
  if sc.clearRef = 0 then { sc' with clearRef := q, rejectedRun := 0 }
  else match sc.verdict acceptRatio holdLimit q with
    | .rejected => { sc' with rejectedRun := sc.rejectedRun + 1 }
    | .forced => { sc' with clearRef := q, rejectedRun := 0 }
    | .accepted => { sc' with clearRef := track sc.clearRef q, rejectedRun := 0 }
    | .none => sc'

/-- The record's verdict for one of the screen's. -/
def ScreenVerdict.recorded : ScreenVerdict → Option Verdict
  | .accepted => some .accepted
  | .forced => some .forced
  | .rejected => Option.none
  | .none => Option.none

/-! ### Frame end (R58–R60) -/

/-- A malformed frame end: the FILLING slot becomes FREE (R58). -/
def State.malformedEnd (s : State) (c : CamId) (k : SlotId) : State :=
  s.setRing c { (s.ring c).free k with malformed := bump (s.ring c).malformed }

/-- A rejected frame: the slot becomes FREE (R59). -/
def State.rejectedEnd (s : State) (c : CamId) (k : SlotId) : State :=
  s.setRing c { (s.ring c).free k with rejected := bump (s.ring c).rejected }

/-- A slot SCORED: its record takes the concealed count, the detail measures and the verdict (R59). -/
def Slot.scored (k : Slot) (concealed : Nat) (v : Verdict) : Slot :=
  { k.mapRecord (fun r =>
      { r with concealed := some concealed, qx := some k.qx, q := some k.q, verdict := some v }) with state := .scored }

/-- A ring with its forced count raised for a FORCED verdict (R59, R65). -/
def Ring.countVerdict (r : Ring) (v : Verdict) : Ring :=
  match v with
  | .accepted => r
  | .forced => { r with forced := bump r.forced }

/-- An accepted or forced frame: the slot enters SCORED and its job is handed over (R59, R60). -/
def State.scoredEnd (s : State) (c : CamId) (k : SlotId) (concealed : Nat) (v : Verdict) : State :=
  let s := s.setSlot c k ((s.slot c k).scored concealed v)
  (s.setRing c ((s.ring c).countVerdict v)).handOff ⟨c, k⟩

/-- A well-formed frame end: the screen judges the frame and the store acts on the verdict (R59, R70). -/
def State.wellFormedEnd (s : State) (c : CamId) (k : SlotId) (concealed : Nat) : State :=
  let q := (s.slot c k).q
  let p := s.camParams c
  let v := (s.screen c).verdict p.acceptRatio p.holdLimit q
  let s := s.setScreen c ((s.screen c).judge p.acceptRatio p.holdLimit q)
  match v.recorded with
  | none => s.rejectedEnd c k
  | some v => s.scoredEnd c k concealed v

/-- A frame end raised by the link receiver of camera `c`. -/
def State.storeFrameEnd (s : State) (c : CamId) (wellFormed : Bool) (concealed : Nat) : State :=
  match (s.ring c).filling? with
  | none => s
  | some k => if wellFormed then s.wellFormedEnd c k concealed else s.malformedEnd c k

/-! ### Link-down (R63, R82) -/

/-- Link-down at the store: the FILLING slot, if any, becomes FREE and an aborted frame is counted. -/
def State.storeLinkDown (s : State) (c : CamId) : State :=
  match (s.ring c).filling? with
  | none => s
  | some k => s.setRing c { (s.ring c).free k with aborted := bump (s.ring c).aborted }

/-- Link-down at the screen (R82). -/
def State.screenLinkDown (s : State) (c : CamId) : State :=
  s.setScreen c { s.screen c with clearRef := 0, rejectedRun := 0 }

end Sys2Proof.Machine
end

