-- ==== Sys2Proof/Machine/Links.lean ====
section
/-! DEFINITION. Camera links (01): link states and their timers, the sampling delay line, frame and line reception, and
the meanings of the link's commands. -/

namespace Sys2Proof.Machine

/-! ### Link states (R4–R12) -/

/-- The link entering ACQUIRE with an attempt count: the reference starts locking afresh and the acquire timer starts
(R5). No frame is in progress and no update pending outside LOCKED (R9, R12, R23). -/
def Link.acquire (l : Link) (attempts : Nat) (now : Time) : Link :=
  { l with
    state := .acquire, attempts := attempts, timerStart := now, refLocked := false
    updatePending := false, progress := .none, openLine := none }

/-- The link entering DOWN: its reference stopped and unlocked, update-pending cleared (R4). -/
def Link.shutDown (l : Link) : Link :=
  { l with state := .down, refLocked := false, updatePending := false, progress := .none, openLine := none }

/-- The link entering VERIFY: the gate opens and LINK_RATE is captured for it (R6). -/
def Link.verify (l : Link) (rate : Nat) (now : Time) : Link :=
  { l with state := .verify, timerStart := now, gateRate := rate, wordClocks := 0, refLocked := true }

/-- The link entering LOCKED (R8). -/
def Link.lock (l : Link) (now : Time) : Link :=
  { l with
    state := .locked, timerStart := now, consecMalformed := 0, framesSinceUpdate := 0, updatePending := false
    progress := .none, openLine := none }

/-- The link entering FAILED: the backoff timer starts (R7). -/
def Link.fail (l : Link) (now : Time) : Link :=
  { l with state := .failed, attempts := 4, timerStart := now, refLocked := false, failureCount := bump l.failureCount }

/-- A failed attempt (R7). -/
def State.failAttempt (s : State) (c : CamId) : State :=
  let l := s.link c
  if l.attempts + 1 < 4 then s.setLink c (l.acquire (l.attempts + 1) s.timebase)
  else (s.setLink c (l.fail s.timebase)).notice .linkFailed c.num (bump l.failureCount)

/-- Link-down as its three owners take it (R10). -/
def State.linkDown (s : State) (c : CamId) : State :=
  ((s.storeLinkDown c).engineLinkDown c).screenLinkDown c

/-- A link leaving LOCKED for ACQUIRE (R9): the loss is counted and LINK_LOST sent, the frame abandoned. -/
def State.leaveLocked (s : State) (c : CamId) : State :=
  let lost := bump (s.link c).lossCount
  let s := (s.setLink c { s.link c with lossCount := lost }).notice .linkLost c.num lost
  let s := s.linkDown c
  s.setLink c ((s.link c).acquire 0 s.timebase)

/-! ### Sampling delay line (R13–R15) -/

/-- The tap an update loads (R13). -/
def Link.updateTap (l : Link) (override : Int) : Tap :=
  if 0 ≤ override then BitVec.ofInt 7 override else l.offered

/-- A tap update applied (R13); a change while a line is open makes the line bad (R14). -/
def Link.applyUpdate (l : Link) (override : Int) : Link :=
  let t := l.updateTap override
  { l with
    tap := t
    openLine := if t = l.tap then l.openLine else l.openLine.map (fun o => { o with bad := true }) }

/-- An update falls due in LOCKED: applied at once, or set pending with TAP_GATE = 1 (R15). -/
def Link.updateDue (l : Link) (p : CamParams) : Link :=
  if p.tapGate then { l with updatePending := true } else l.applyUpdate p.tapOverride

/-- The update pending at a FRAME-END in LOCKED, or at TAP_GATE written to 0, is applied and cleared (R15). -/
def Link.applyPending (l : Link) (p : CamParams) : Link :=
  if l.state = .locked ∧ l.updatePending then { l.applyUpdate p.tapOverride with updatePending := false } else l

/-- The camera's pending update, if any, is applied and cleared (R15). -/
def State.applyPendingTap (s : State) (c : CamId) : State := s.setLink c ((s.link c).applyPending (s.camParams c))

/-- The scheduled update of a FRAME-START that begins a frame (R15). -/
def Link.scheduleUpdate (l : Link) (p : CamParams) : Link :=
  if p.tapUpdateFrames ≤ l.framesSinceUpdate + 1 then Link.updateDue { l with framesSinceUpdate := 0 } p
  else { l with framesSinceUpdate := l.framesSinceUpdate + 1 }

/-- FORCE-TAP-UPDATE: it has an effect in LOCKED alone (R15). -/
def State.forceTapUpdate (s : State) (c : CamId) : State :=
  if (s.link c).state = .locked then s.setLink c ((s.link c).updateDue (s.camParams c)) else s

/-- The tap the reference offers now. -/
def State.setOffered (s : State) (c : CamId) (t : Tap) : State := s.setLink c { s.link c with offered := t }

/-! ### Link states left by their timers and by the reference -/

/-- REFERENCE_LOCK (R5). -/
def execReferenceLock (c : CamId) (offered : Tap) (s : State) : Host.Outcome State Fault Refusal :=
  event (fun s =>
    if (s.link c).state = .acquire then
      let l := { s.link c with offered := offered }
      s.setLink c ((l.applyUpdate (s.camParams c).tapOverride).verify (s.camParams c).linkRate s.timebase)
    else s) s

/-- ACQUIRE_TIMEOUT (R5): 1 ms in ACQUIRE without lock. -/
def execAcquireTimeout (c : CamId) (s : State) : Host.Outcome State Fault Refusal :=
  event (fun s =>
    if (s.link c).state = .acquire ∧ due (s.link c).timerStart s.timebase 1000 then s.failAttempt c else s) s

/-- Whether a gate's count passes against the captured LINK_RATE, within floor(LINK_RATE / 200) (R6). -/
def Link.gatePasses (l : Link) : Bool :=
  decide (l.gateRate ≤ l.wordClocks + l.gateRate / 200) && decide (l.wordClocks ≤ l.gateRate + l.gateRate / 200)

/-- GATE_END (R6): the 24,000 crystal ticks of the gate, 1 ms, are over. -/
def execGateEnd (c : CamId) (s : State) : Host.Outcome State Fault Refusal :=
  event (fun s =>
    if (s.link c).state = .verify ∧ due (s.link c).timerStart s.timebase 1000 then
      if (s.link c).gatePasses then s.setLink c ((s.link c).lock s.timebase) else s.failAttempt c
    else s) s

/-- REFERENCE_UNLOCK (R6, R9). -/
def execReferenceUnlock (c : CamId) (s : State) : Host.Outcome State Fault Refusal :=
  event (fun s =>
    match (s.link c).state with
    | .verify => s.failAttempt c
    | .locked => s.leaveLocked c
    | .down => s
    | .acquire => s
    | .failed => s) s

/-- BACKOFF_END (R7): 2,000 ms in FAILED. -/
def execBackoffEnd (c : CamId) (s : State) : Host.Outcome State Fault Refusal :=
  event (fun s =>
    if (s.link c).state = .failed ∧ due (s.link c).timerStart s.timebase 2000000 then
      s.setLink c ((s.link c).acquire 0 s.timebase)
    else s) s

/-- SIGNAL_LOSS (R9): 2 ms in LOCKED with no marker taken. -/
def execSignalLoss (c : CamId) (s : State) : Host.Outcome State Fault Refusal :=
  event (fun s =>
    if (s.link c).state = .locked ∧ due (s.link c).timerStart s.timebase 2000 then s.leaveLocked c else s) s

/-- LINK-RESET according to the link's state (R11). -/
def State.linkReset (s : State) (c : CamId) : State :=
  match (s.link c).state with
  | .locked => s.leaveLocked c
  | .acquire => s.setLink c ((s.link c).acquire 0 s.timebase)
  | .verify => s.setLink c ((s.link c).acquire 0 s.timebase)
  | .failed => s.setLink c ((s.link c).acquire 0 s.timebase)
  | .down => s

/-- Count link words of an open gate (R6). -/
def State.countWords (s : State) (c : CamId) (n : Nat) : State :=
  s.setLink c { s.link c with wordClocks := (s.link c).wordClocks + n }

/-- A control word that names no marker, or a marker without its payload, on an open line: the data words that follow it
are discarded up to the next control word (R2). -/
def OpenLine.skip (o : OpenLine) : OpenLine := { o with skipping := true }

/-- Such a control word taken in LOCKED: it is discarded, and with a line open so are the data words after it. It is no
marker, so the signal-loss timer runs on (R2). -/
def State.skipWords (s : State) (c : CamId) : State :=
  s.setLink c { s.link c with openLine := (s.link c).openLine.map OpenLine.skip }

/-- WORD_CLOCK: a link word that is neither a marker nor a pixel word (log entry 6). In VERIFY it is counted (R6); in LOCKED
it is discarded with the data words up to the next control word (R2); in every other state it is discarded. -/
def execWordClock (c : CamId) (s : State) : Host.Outcome State Fault Refusal :=
  event (fun s =>
    match (s.link c).state with
    | .locked => s.skipWords c
    | .verify => s.countWords c 1
    | .down => s
    | .acquire => s
    | .failed => s) s

/-- A marker of `words` link words: `f` takes it in LOCKED, where it restarts the signal-loss timer (R8, R9); in VERIFY
its words are counted alone (R6); in every other state it is discarded. -/
def State.marker (s : State) (c : CamId) (words : Nat) (f : State → State) : State :=
  match (s.link c).state with
  | .locked => f (s.setLink c { s.link c with timerStart := s.timebase })
  | .verify => s.countWords c words
  | .down => s
  | .acquire => s
  | .failed => s

/-! ### Rows and profiles (R18, R21) -/

/-- The sum of a row's luma over columns 80 … 719. -/
def rowSum (row : List Word) : Nat := (((row.drop 80).take 640).map luma).sum

/-- The profiles with row `y` added (R21). -/
def addRow (p : XY (List Nat)) (y : Nat) (row : List Word) : XY (List Nat) where
  x := if 80 ≤ y ∧ y ≤ 399 then List.zipWith (· + ·) p.x (row.map luma) else p.x
  y := p.y.set y (rowSum row)

/-- The slot with `row` settled as row `y`. -/
def Slot.settle (k : Slot) (y : Nat) (row : List Word) : Slot :=
  { k with pixels := RowStore.write k.pixels Config.frameWidth y row, profiles := addRow k.profiles y row }

/-- The row a concealment writes: a copy of the last good row, or black (R18). -/
def Slot.concealRow (k : Slot) (lastGood : Option Nat) : List Word :=
  match lastGood with
  | none => blackRow Config.frameWidth
  | some g => RowStore.read k.pixels Config.frameWidth g

/-- Settle the next position of a RECEIVING link by concealment (R18). -/
def State.conceal (s : State) (c : CamId) (k : SlotId) : State :=
  let l := s.link c
  let s := s.setSlot c k ((s.slot c k).settle l.nextPos ((s.slot c k).concealRow l.lastGood))
  s.setLink c { l with nextPos := l.nextPos + 1, concealed := l.concealed + 1 }

/-- Settle `n` positions by concealment, in increasing order. -/
def State.concealMany (s : State) (c : CamId) (k : SlotId) : Nat → State
  | 0 => s
  | n + 1 => State.concealMany (s.conceal c k) c k n

/-- Settle the next position from the pixels of a good line (R18). -/
def State.settleGood (s : State) (c : CamId) (k : SlotId) (row : List Word) : State :=
  let l := s.link c
  let s := s.setSlot c k ((s.slot c k).settle l.nextPos row)
  s.setLink c { l with nextPos := l.nextPos + 1, lastGood := some l.nextPos }

/-- No line is open any more. -/
def State.closeLine (s : State) (c : CamId) : State := s.setLink c { s.link c with openLine := none }

/-- Settle an open line as bad, if one is open (R17, R19). -/
def State.settleOpenBad (s : State) (c : CamId) (k : SlotId) : State :=
  match (s.link c).openLine with
  | none => s
  | some _ => (s.conceal c k).closeLine c

/-! ### Frames (R16, R19, R20) -/

/-- Whether a frame that ends is malformed (R19). -/
def frameMalformed (concealed limit nextPos : Nat) (byStart : Bool) : Bool :=
  decide (limit < concealed) || decide (nextPos < 480) || byStart

/-- The consecutive-malformed count after a frame, with the link leaving LOCKED at the third malformed one (R20). -/
def State.countMalformed (s : State) (c : CamId) (malformed : Bool) : State :=
  let l := s.link c
  if malformed then
    if l.consecMalformed + 1 < 3 then s.setLink c { l with consecMalformed := l.consecMalformed + 1 }
    else
      let runs := bump l.malformedRunCount
      let s := s.setLink c { l with consecMalformed := 3, malformedRunCount := runs }
      (s.notice .frameMalformed c.num runs).leaveLocked c
  else s.setLink c { l with consecMalformed := 0 }

/-- The end of a frame that was RECEIVING into slot `k`, by a FRAME-END or by a FRAME-START (R19). A FRAME-END applies the
pending tap update once the frame has been judged, and so also where the third malformed frame then takes the link out of
LOCKED (R15, R20). -/
def State.endFrame (s : State) (c : CamId) (k : SlotId) (byStart : Bool) : State :=
  let s := s.settleOpenBad c k
  let l := s.link c
  let concealed := l.concealed + (480 - l.nextPos)
  let malformed := frameMalformed concealed (s.camParams c).concealLimit l.nextPos byStart
  let s := s.setLink c { l with progress := .none, concealed := concealed }
  let s := s.storeFrameEnd c (!malformed) concealed
  (if byStart then s else s.applyPendingTap c).countMalformed c malformed

/-- The link of a frame that begins in slot `k` (R16). -/
def Link.receive (l : Link) (k : SlotId) : Link :=
  { l with progress := .receiving k, nextPos := 0, lastGood := none, openLine := none, concealed := 0 }

/-- Begin a frame: the store allocates a slot or declares an overrun, and the scheduled tap update is made (R15, R16,
R53). -/
def State.beginFrame (s : State) (c : CamId) (counter : Byte) : State :=
  let s := s.setLink c { s.link c with lastFrameCounter := counter }
  let s := s.setRing c (s.ring c).counted
  let s := match (s.ring c).allocate? with
    | some k => (s.fillSlot c k).setLink c ((s.link c).receive k)
    | none => (s.setLink c { s.link c with progress := .discarding, openLine := none }).overrun c
  s.setLink c ((s.link c).scheduleUpdate (s.camParams c))

/-- A FRAME-START taken in LOCKED (R16). -/
def State.takeFrameStart (s : State) (c : CamId) (counter : Byte) : State :=
  match (s.link c).progress with
  | .none => s.beginFrame c counter
  | .discarding => s.beginFrame c counter
  | .receiving k =>
    let s := s.endFrame c k true
    if (s.link c).state = .locked then s.beginFrame c counter else s

/-- FRAME_START (R16). -/
def execFrameStart (c : CamId) (counter : Byte) (offered : Tap) (s : State) : Host.Outcome State Fault Refusal :=
  event (fun s => s.marker c 2 (fun s => (s.setOffered c offered).takeFrameStart c counter)) s

/-- A FRAME-END taken in LOCKED (R15, R16, R19). -/
def State.takeFrameEnd (s : State) (c : CamId) : State :=
  match (s.link c).progress with
  | .none => s.applyPendingTap c
  | .discarding => (s.setLink c { s.link c with progress := .none }).applyPendingTap c
  | .receiving k => s.endFrame c k false

/-- FRAME_END (R19). -/
def execFrameEnd (c : CamId) (offered : Tap) (s : State) : Host.Outcome State Fault Refusal :=
  event (fun s => s.marker c 1 (fun s => (s.setOffered c offered).takeFrameEnd c)) s

/-! ### Lines (R3, R17, R18) -/

/-- A line opened with a number; its CRC register starts at all ones (R3). -/
def OpenLine.opened (number : Nat) (bad : Bool) : OpenLine := ⟨number, 0, 0xFFFF#16, bad, [], false⟩

/-- A line opens. -/
def State.openAt (s : State) (c : CamId) (number : Nat) (bad : Bool) : State :=
  s.setLink c { s.link c with openLine := some (.opened number bad) }

/-- A LINE-START taken while RECEIVING (R17). -/
def State.takeLineStart (s : State) (c : CamId) (k : SlotId) (n : Nat) : State :=
  let s := s.settleOpenBad c k
  let p := (s.link c).nextPos
  if 480 ≤ p then s
  else if n = p then s.openAt c n false
  else if p < n ∧ n ≤ 479 then (s.concealMany c k (n - p)).openAt c n false
  else s.openAt c n true

/-- Work of a marker for a frame being received; in NONE and DISCARDING the marker is discarded. -/
def State.whileReceiving (s : State) (c : CamId) (f : SlotId → State → State) : State :=
  match (s.link c).progress with
  | .receiving k => f k s
  | .none => s
  | .discarding => s

/-- LINE_START (R17). -/
def execLineStart (c : CamId) (number : Word) (s : State) : Host.Outcome State Fault Refusal :=
  event (fun s =>
    s.marker c 2 (fun s => s.whileReceiving c (fun k s => s.takeLineStart c k number.toNat))) s

/-- A data word on an open line: discarded after a control word that is no marker (R2); else a pixel word, fed to the CRC and
held; beyond the 800th the line is bad (R3). -/
def OpenLine.feed (o : OpenLine) (w : Word) : OpenLine :=
  if o.skipping then o
  else if o.count < 800 then { o with count := o.count + 1, crc := crcWord o.crc w, buffer := o.buffer ++ [w] }
  else { o with bad := true }

/-- PIXEL_WORD (R2, R3): in VERIFY the word is counted as a word clock (R6). -/
def execPixelWord (c : CamId) (word : Word) (s : State) : Host.Outcome State Fault Refusal :=
  event (fun s =>
    match (s.link c).state with
    | .locked => s.setLink c { s.link c with openLine := (s.link c).openLine.map (fun o => o.feed word) }
    | .verify => s.countWords c 1
    | .down => s
    | .acquire => s
    | .failed => s) s

/-- Whether an open line is good at its LINE-END (R3). -/
def OpenLine.good (o : OpenLine) (check : Word) (nextPos : Nat) : Bool :=
  !o.bad && o.count = 800 && o.crc = check && o.number = nextPos

/-- A LINE-END taken while RECEIVING (R18). -/
def State.takeLineEnd (s : State) (c : CamId) (k : SlotId) (check : Word) : State :=
  match (s.link c).openLine with
  | none => s
  | some o =>
    if o.good check (s.link c).nextPos then (s.settleGood c k o.buffer).closeLine c
    else (s.conceal c k).closeLine c

/-- LINE_END (R18). -/
def execLineEnd (c : CamId) (check : Word) (s : State) : Host.Outcome State Fault Refusal :=
  event (fun s => s.marker c 2 (fun s => s.whileReceiving c (fun k s => s.takeLineEnd c k check))) s

end Sys2Proof.Machine
end

