-- ==== Sys2Proof/Machine/Outputs.lean ====
section
/-! DEFINITION. The output compositors (07): the raster's frame starts, the shown view, the selection and pinning of
frames, crop origins, border states, freeze, and the meaning of OUTPUT_FRAME_START. -/

namespace Sys2Proof.Machine

/-! ### Raster timing (R129) -/

/-- The spacing of frame starts in µs at a rate and a place in the 60-frame pattern. -/
def rasterSpacing (rate phase : Nat) : Nat :=
  if rate = 50 then 20000 else if phase = 2 then 16666 else 16667

/-- The compositor's raster timing after a frame start at which RASTER_RATE is `rate`. -/
def Compositor.nextRaster (oc : Compositor) (rate : Nat) : Compositor :=
  { oc with
    rasterStart := oc.rasterStart + BitVec.ofNat 32 (rasterSpacing oc.rasterRate oc.rasterPhase)
    rasterRate := rate
    rasterPhase := if oc.patternFresh || oc.rasterRate = 50 then 0 else (oc.rasterPhase + 1) % 3
    patternFresh := false }

/-! ### The shown view (R132) -/

/-- A SPLIT of one camera with itself becomes FULL on it. -/
def View.normalised : View → View
  | .full c => .full c
  | .split a b => if a = b then .full a else .split a b

/-- The default view of an output as its parameters stand. -/
def OutParams.defaultView (p : OutParams) : View :=
  match p.defaultLayout with
  | .full => .full p.defaultCamA
  | .split => .split p.defaultCamA p.defaultCamB

/-- The view an output frame start applies. -/
def Compositor.viewToShow (oc : Compositor) (p : OutParams) : View := (oc.grant.getD p.defaultView).normalised

/-! ### Selecting and pinning (R134, R135) -/

/-- Release a window's pin, if it holds one. -/
def State.releasePin (s : State) (w : Window) : State :=
  match w.slot with
  | none => s
  | some k => s.unpinSlot w.cam k

/-- A window of the shown view selects its frame of camera `c`. -/
def State.selectFor (s : State) (w : Window) (c : CamId) : State × Window :=
  match (s.ring c).newestReady? with
  | some k =>
    if w.cam = c ∧ w.slot = some k then (s, w)
    else ((s.pinSlot c k).releasePin w, { w with cam := c, slot := some k })
  | none =>
    if w.cam = c ∧ w.slot.isSome then (s, w)
    else (s.releasePin w, { w with cam := c, slot := none })

/-! ### Crop origin (R136) and border state (R138–R141) -/

/-- Ox: clamped to 0 … 96, an odd result decreased by 1. -/
def cropX (nominal sx : Int) : Nat :=
  let o := clamp (nominal + nearest sx 16) 0 96
  (o - o % 2).toNat

/-- Oy: clamped to 0 … 64. -/
def cropY (nominal sy : Int) : Nat := (clamp (nominal + nearest sy 16) 0 64).toNat

/-- The border state of a window that draws the frame of record `r`, at a frame start at `now` (R138). -/
def frameBorder (r : Record) (staleLimit rejectedRun : Nat) (now : Time) : Border :=
  if staleLimit * 1000 < elapsed r.capture now then .stale
  else if 0 < rejectedRun then .held
  else if r.verdict = some .forced then .forced
  else .live

/-- A window after its selection, with crop origin and border state (R136, R138); without a slot it keeps its origin. -/
def State.dress (s : State) (w : Window) : Window :=
  match w.slot with
  | none => { w with border := .noSignal }
  | some k =>
    match s.record? w.cam k with
    | none => { w with border := .noSignal }
    | some r =>
      let p := s.camParams w.cam
      let sh := r.shift.getD (.same 0)
      { w with
        ox := cropX p.nominalX sh.x
        oy := cropY p.nominalY sh.y
        border := frameBorder r p.staleLimit (s.screen w.cam).rejectedRun s.timebase }

/-! ### The frame start (R129, R134, R143, R146) -/

/-- A window of a frozen output: no pin, border FROZEN (R143). -/
def Window.frozen (w : Window) : Window := { w with slot := none, border := .frozen }

/-- The set-up of a frame with the frozen flag set (R143). -/
def State.showStill (s : State) (o : OutId) : State :=
  let oc := s.output o
  let s := (s.releasePin oc.win1).releasePin oc.win2
  s.setOutput o { oc with mode := .still, win1 := oc.win1.frozen, win2 := oc.win2.frozen }

/-- The set-up of a frame with the frozen flag clear (R132–R141). -/
def State.showLive (s : State) (o : OutId) : State :=
  let oc := s.output o
  let v := oc.viewToShow (s.outParams o)
  let (s, w1) := s.selectFor oc.win1 v.camA
  let (s, w2) := match v.camB? with
    | none => (s.releasePin oc.win2, { oc.win2 with slot := none })
    | some c => s.selectFor oc.win2 c
  let w2 := match v.camB? with
    | none => w2
    | some _ => s.dress w2
  s.setOutput o { oc with mode := .liveView, shown := v, win1 := s.dress w1, win2 := w2 }

/-- Whether the frame set up differs from the previous one in shown view or border states (R146). -/
def Compositor.differs (old new : Compositor) : Bool :=
  decide (old.shown ≠ new.shown) || decide (old.win1.border ≠ new.win1.border) || decide (old.borderB ≠ new.borderB)

/-- The frame an output frame start sets up, STILL or live by the frozen flag (R129, R134, R143). -/
def State.setUpFrame (s : State) (o : OutId) : State :=
  let old := s.output o
  let oc := { old.nextRaster (s.outParams o).rasterRate with frameStart := s.timebase, blanked := false }
  if old.frozen then (s.setOutput o oc).showStill o else (s.setOutput o oc).showLive o

/-- An output frame start: the frame is set up, and a VIEW STATUS asked for when it differs (R146). -/
def State.outputFrame (s : State) (o : OutId) : State :=
  let s' := s.setUpFrame o
  if (s.output o).differs (s'.output o) then s'.ask (.viewStatus o) else s'

/-- OUTPUT_FRAME_START (R129): due one spacing after the last. -/
def execOutputFrameStart (o : OutId) (s : State) : Host.Outcome State Fault Refusal :=
  event (fun s =>
    let oc := s.output o
    if due oc.rasterStart s.timebase (rasterSpacing oc.rasterRate oc.rasterPhase) then s.outputFrame o else s) s

/-! ### Answers and grants (R133, R144, R145) -/

/-- What the compositor answers about a window; with the frozen flag set, that it holds no slot. -/
def Window.source (w : Window) (frozen : Bool) : WinSource := ⟨w.cam, if frozen then none else w.slot, w.ox, w.oy⟩

/-- The compositor's answer: the shown view's layout and its windows (R144). -/
def Compositor.answer (oc : Compositor) : Sources :=
  match oc.shown with
  | .full _ => .full (oc.win1.source oc.frozen)
  | .split _ _ => .split (oc.win1.source oc.frozen) (oc.win2.source oc.frozen)

/-- Whether some window of an answer holds a slot. -/
def Sources.held : Sources → Bool
  | .full w => w.slot.isSome
  | .split w v => w.slot.isSome || v.slot.isSome

/-- The grant replaced and the frozen flag cleared (R133, R145). -/
def State.handGrant (s : State) (o : OutId) (g : Option View) : State :=
  s.setOutput o { s.output o with grant := g, frozen := false }

/-- The frozen flag set or cleared. -/
def State.setFrozen (s : State) (o : OutId) (f : Bool) : State := s.setOutput o { s.output o with frozen := f }

end Sys2Proof.Machine
end

