-- ==== Sys2Proof/Machine/StillCapture.lean ====
section
/-! DEFINITION. The still unit (09): copies and their order, the still's pixels, the ends of a copy, and the meanings of
FREEZE, UNFREEZE and COPY_COMPLETION. -/

namespace Sys2Proof.Machine

/-- An output's number as a message byte. -/
def OutId.byte (o : OutId) : Byte := byteOf o.num 0

/-- The answer of a freeze, to the node code of its copy record. -/
def State.answerFreeze (s : State) (r : CopyRecord) (res : Result) : State :=
  s.answer r.node (OutId.byte r.output) .freeze res

/-! ### Sources -/

def Sources.windows : Sources → List WinSource
  | .full w => [w]
  | .split w v => [w, v]

/-- The copier's pin on a source's slot (R177). -/
def State.pinSource (s : State) (w : WinSource) : State :=
  match w.slot with
  | none => s
  | some k => s.pinSlot w.cam k

/-- The copier's pin released (R179–R181). -/
def State.unpinSource (s : State) (w : WinSource) : State :=
  match w.slot with
  | none => s
  | some k => s.unpinSlot w.cam k

/-- The sequence number of a source's frame. -/
def State.sourceSeq (s : State) (w : WinSource) : Option Nat :=
  match w.slot with
  | none => none
  | some k => (s.record? w.cam k).map (·.seq)

/-- The source description written at a copy's start: its completion time is absent (R178). -/
def State.describe (s : State) (src : Sources) : SourceDesc :=
  match src with
  | .full w => ⟨src, s.sourceSeq w, none, none⟩
  | .split w v => ⟨src, s.sourceSeq w, s.sourceSeq v, none⟩

/-! ### Pixels (R178) -/

/-- `n` pixels of line `v` of a source window, from column Ox + `skip`; black without a slot. -/
def State.windowLine (s : State) (w : WinSource) (skip n v : Nat) : List Word :=
  match w.slot with
  | none => List.replicate n Config.black
  | some k =>
    let row := RowStore.read (s.slot w.cam k).pixels Config.frameWidth (w.oy + v)
    (List.range n).map (fun u => row.getD (w.ox + skip + u) Config.black)

/-- Line `v` of the still of some sources. -/
def State.stillLine (s : State) (src : Sources) (v : Nat) : List Word :=
  match src with
  | .full w => s.windowLine w 0 704 v
  | .split w u => s.windowLine w 176 352 v ++ s.windowLine u 176 352 v

/-- The still of some sources, in canonical form. -/
def State.composeStill (s : State) (src : Sources) : RowStore :=
  ((List.range Config.viewHeight).map (fun v => (v, s.stillLine src v))).filter
    (fun e => e.2 ≠ blackRow Config.viewWidth)

/-! ### Starting copies (R176, R177) -/

/-- A copy starts: its sources are pinned and its output's still becomes invalid. What the still slot holds until the
copy ends is not visible (R178) and is taken as black. -/
def State.startCopy (s : State) (r : CopyRecord) (src : Sources) : State :=
  let st := s.still r.output
  let s' := s.setStill r.output { st with valid := false, pixels := [], desc := some (s.describe src) }
  let s' := s'.setStillUnit { s'.stillUnit with running := some (r, src) }
  src.windows.foldl State.pinSource s'

/-- Start the oldest pending copy that can start; one whose output holds no slot is answered NO_FRAME and removed. -/
def State.startFrom (s : State) : List CopyRecord → State
  | [] => s.setStillUnit { s.stillUnit with waiting := [] }
  | r :: rest =>
    let src := (s.output r.output).answer
    if src.held then (s.setStillUnit { s.stillUnit with waiting := rest }).startCopy r src
    else State.startFrom (s.answerFreeze r .noFrame) rest

/-- When the copier is IDLE, start the next pending copy (R176). -/
def State.startPending (s : State) : State :=
  match s.stillUnit.running with
  | none => s.startFrom s.stillUnit.waiting
  | some _ => s

/-! ### Ending copies (R179–R181) -/

/-- The running copy stops: its pins are released and the copier is IDLE. -/
def State.stopCopy (s : State) (src : Sources) : State :=
  let s := src.windows.foldl State.unpinSource s
  s.setStillUnit { s.stillUnit with running := none }

/-- The completion of the running copy (R179). -/
def State.completeCopy (s : State) : State :=
  match s.stillUnit.running with
  | none => s
  | some (r, src) =>
    let st := s.still r.output
    let s := s.setStill r.output
      { st with
        valid := true
        pixels := s.composeStill src
        desc := st.desc.map (fun d => { d with completed := some s.timebase })
        completed := bump st.completed }
    let s := (s.stopCopy src).setFrozen r.output true
    (s.answerFreeze r .frozen).startPending

/-- COPY_COMPLETION (R179). -/
def execCopyCompletion (s : State) : Host.Outcome State Fault Refusal := event State.completeCopy s

/-- The pending record of an output. -/
def StillUnit.pendingOf (u : StillUnit) (o : OutId) : Option CopyRecord := u.waiting.find? (fun r => r.output = o)

/-- The running copy, if it is of an output. -/
def StillUnit.runningOf (u : StillUnit) (o : OutId) : Option (CopyRecord × Sources) :=
  match u.running with
  | none => none
  | some (r, src) => if r.output = o then some (r, src) else none

/-- Whether a copy for an output is pending or running (R175). -/
def StillUnit.busy (u : StillUnit) (o : OutId) : Bool := (u.pendingOf o).isSome || (u.runningOf o).isSome

/-- End the copy of an output before its completion, with the count `count` applied to its still and the freeze answered
`res` (R180, R181); nothing when there is none. -/
def State.endCopy (s : State) (o : OutId) (res : Result) (count : Still → Still) : State :=
  match s.stillUnit.pendingOf o, s.stillUnit.runningOf o with
  | some r, _ =>
    let s := s.setStillUnit { s.stillUnit with waiting := s.stillUnit.waiting.filter (fun q => q.output ≠ o) }
    (s.setStill o (count (s.still o))).answerFreeze r res
  | none, some (r, src) =>
    let s := s.stopCopy src
    ((s.setStill o (count (s.still o))).answerFreeze r res).startPending
  | none, none => s

/-- A grant change aborts the output's copy (R181). -/
def State.abortCopy (s : State) (o : OutId) : State :=
  s.endCopy o .aborted (fun st => { st with aborted := bump st.aborted })

/-- An unfreeze cancels the output's copy (R180). -/
def State.cancelCopy (s : State) (o : OutId) : State :=
  s.endCopy o .cancelled (fun st => { st with cancelled := bump st.cancelled })

/-! ### FREEZE messages (R174, R175, R180) -/

/-- A freeze that passes R174. -/
def State.freeze (s : State) (node : Byte) (k : ReqSlot) (o : OutId) : State :=
  if s.stillUnit.busy o then s.answer node (OutId.byte o) .freeze .busy
  else if (s.output o).answer.held then
    let r : CopyRecord := ⟨o, k, node⟩
    (s.setStillUnit { s.stillUnit with waiting := s.stillUnit.waiting ++ [r] }).startPending
  else s.answer node (OutId.byte o) .freeze .noFrame

/-- An unfreeze that passes R174. -/
def State.unfreeze (s : State) (node : Byte) (o : OutId) : State :=
  if s.stillUnit.busy o then (s.cancelCopy o).answer node (OutId.byte o) .unfreeze .ok
  else if (s.output o).frozen then (s.setFrozen o false).answer node (OutId.byte o) .unfreeze .ok
  else s.answer node (OutId.byte o) .unfreeze .notFrozen

/-- What an action byte of a FREEZE message asks (R188). -/
def freezeWhat (action : Byte) : What := if action = 1 then .freeze else .unfreeze

/-- A FREEZE message of either action (R174, R188). -/
def freezeMessage (node output action : Byte) (s : State) : State :=
  let what := freezeWhat action
  fromNode node (fun s => s.answer node output what .unknownRequester) (fun k s =>
    match OutId.ofNat? output.toNat with
    | none => s.answer node output what .badField
    | some o =>
      if action ≠ 0 ∧ action ≠ 1 then s.answer node output what .badField
      else if s.params.maxPriority.get k < s.holderPriority o then s.answer node output what .lowPriority
      else if action = 1 then s.freeze node k o
      else s.unfreeze node o) s

/-- FREEZE: a FREEZE message with action 1. -/
def execFreeze (node output : Byte) (s : State) : Host.Outcome State Fault Refusal :=
  event (onReceipt (freezeMessage node output 1)) s

/-- UNFREEZE: a FREEZE message with action 0, or with an action that is neither (R188). -/
def execUnfreeze (node output action : Byte) (s : State) : Host.Outcome State Fault Refusal :=
  event (onReceipt (freezeMessage node output action)) s

end Sys2Proof.Machine
end

