-- ==== Sys2Proof/Machine/Arbiter.lean ====
section
/-! DEFINITION. The view arbiter (08): the request table, arbitration of an output after each kind of change, grant
changes, expiries, the auger requester, and the meanings of the arbiter's commands. -/

namespace Sys2Proof.Machine

/-! ### The table (R154, R158) -/

/-- The entries of an output with requester `r`'s replaced. -/
def Requests.set (t : Requests) (r : Requester) (e : Option Entry) : Requests :=
  match r with
  | .auger => { t with auger := e }
  | .master k => { t with masters := t.masters.set k e }

/-- The entry of a requester for an output. -/
def State.entry? (s : State) (o : OutId) (r : Requester) : Option Entry := (s.requests o).get r

def State.setEntry (s : State) (o : OutId) (r : Requester) (e : Option Entry) : State :=
  s.setRequests o ((s.requests o).set r e)

/-- The entries of an output, with their requesters. -/
def Requests.entries (t : Requests) : List (Requester × Entry) :=
  Requester.all.filterMap (fun r => (t.get r).map (fun e => (r, e)))

/-- Whether an entry ranks above another: a higher priority, or the same and later received (R158). -/
def ranksAbove (new old : Requester × Entry) : Bool :=
  decide (old.2.priority < new.2.priority) ||
    (old.2.priority = new.2.priority && decide (old.2.order < new.2.order))

/-- The highest-ranking of some entries. -/
def bestOf : List (Requester × Entry) → Option (Requester × Entry)
  | [] => none
  | e :: rest =>
    match bestOf rest with
    | none => some e
    | some b => if ranksAbove e b then some e else some b

/-- The waiting-equal candidate formed afresh (R161): the latest received of the other entries of the holder's priority
received after the grant. -/
def Requests.candidateFor (t : Requests) (g : OutGrant) : Option Requester :=
  match g.holder with
  | none => none
  | some h =>
    match t.get h with
    | none => none
    | some he =>
      (bestOf (t.entries.filter (fun e =>
        decide (e.1 ≠ h) && e.2.priority = he.priority && decide (g.grantOrder < e.2.order)))).map (·.1)

/-- Form an output's candidate afresh. -/
def State.formCandidate (s : State) (o : OutId) : State :=
  s.setOutGrant o { s.outGrant o with candidate := (s.requests o).candidateFor (s.outGrant o) }

/-! ### Grant changes (R165) -/

/-- The view the arbiter hands over: the holder's, or DEFAULT. -/
def State.grantedView (s : State) (o : OutId) : Option View := (s.holderEntry? o).map (·.view)

/-- A grant change of an output: the grant is handed to the compositor, the output's copy aborted, a VIEW STATUS asked
for, and the change counted. -/
def State.grantChange (s : State) (o : OutId) : State :=
  let s := (s.handGrant o (s.grantedView o)).abortCopy o
  let s := s.ask (.viewStatus o)
  s.setOutGrant o { s.outGrant o with grantCount := bump (s.outGrant o).grantCount }

/-- Requester `r`'s entry becomes, or stays by its own update, holder of the output now (R159, R160, R162–R164): with
DWELL = 0 the dwell is ELAPSED from the grant itself (R161). -/
def State.grantTo (s : State) (o : OutId) (r : Requester) : State :=
  let g : OutGrant :=
    { s.outGrant o with
      holder := some r, grantTime := s.timebase, dwellRunning := decide (0 < s.params.dwell)
      grantOrder := s.arbiter.receipts }
  ((s.setOutGrant o g).formCandidate o).grantChange o

/-- The output is left without a holder and granted its default view (R164, R165). -/
def State.grantDefault (s : State) (o : OutId) : State :=
  (s.setOutGrant o { s.outGrant o with holder := none, dwellRunning := false, candidate := none }).grantChange o

/-- The best entry becomes holder; an output without entries is granted its default view (R164). -/
def State.grantBest (s : State) (o : OutId) : State :=
  match bestOf (s.requests o).entries with
  | some (r, _) => s.grantTo o r
  | none => s.grantDefault o

/-! ### Arbitration after each kind of change -/

/-- The highest priority among the entries of an output other than requester `r`'s, 0 when there is none. -/
def Requests.othersPriority (t : Requests) (r : Requester) : Nat :=
  match bestOf (t.entries.filter (fun e => e.1 ≠ r)) with
  | none => 0
  | some b => b.2.priority

/-- Arbitration after requester `r`'s entry `e` for the output was created or replaced (R159–R161, R163). -/
def State.afterReceipt (s : State) (o : OutId) (r : Requester) (e : Entry) : State :=
  match (s.outGrant o).holder with
  | none => s.grantTo o r
  | some h =>
    if h = r then
      if (s.requests o).othersPriority r ≤ e.priority then s.grantTo o r else s.grantBest o
    else
      let hp := s.holderPriority o
      if hp < e.priority then s.grantBest o
      else if e.priority = hp ∧ (s.outGrant o).dwellRunning = false then s.grantTo o r
      else s.formCandidate o

/-- Requester `r`'s entry for the output is created or replaced, received now, and the output arbitrated (R156). -/
def State.receive (s : State) (o : OutId) (r : Requester) (v : View) (priority hold : Nat) : State :=
  let n := s.arbiter.receipts + 1
  let e : Entry := ⟨v, priority, hold, s.timebase, n⟩
  let s := s.setArbiter { s.arbiter with receipts := n }
  (s.setEntry o r (some e)).afterReceipt o r e

/-- Arbitration after requester `r`'s entry left the output (R164): the holder's leaving is a grant change, another's
forms the candidate afresh. -/
def State.afterRemoval (s : State) (o : OutId) (r : Requester) : State :=
  if (s.outGrant o).holder = some r then s.grantBest o else s.formCandidate o

/-- Arbitration after the keep-alive expiry of requester `r` took its entry from the output. Where `r` was the holder, R165
counts several grant changes: the removal, which leaves the output without a holder, and the grant of the best entry that
remains, if any; R164 speaks of one (log entry 29). -/
def State.afterExpiry (s : State) (o : OutId) (r : Requester) : State :=
  if (s.outGrant o).holder = some r then
    match bestOf (s.requests o).entries with
    | some (b, _) => (s.grantDefault o).grantTo o b
    | none => s.grantDefault o
  else s.formCandidate o

/-- Requester `r`'s entry for the output, if it has one, is removed and the output arbitrated. -/
def State.remove (s : State) (o : OutId) (r : Requester) : State :=
  match s.entry? o r with
  | none => s
  | some _ => (s.setEntry o r none).afterRemoval o r

/-- The dwell of an output passes to ELAPSED: its candidate, if any, becomes holder (R162). -/
def State.dwellElapsed (s : State) (o : OutId) : State :=
  match (s.outGrant o).candidate with
  | some r => s.grantTo o r
  | none => s.setOutGrant o { s.outGrant o with dwellRunning := false }

/-- Whether a running dwell has lasted DWELL ms (R161). -/
def State.dwellOver (s : State) (o : OutId) : Bool :=
  (s.outGrant o).dwellRunning && due (s.outGrant o).grantTime s.timebase (s.params.dwell * 1000)

/-- A write of DWELL on one output (R161): at or below the time already passed since the grant time, it makes the dwell
ELAPSED, and a waiting candidate takes over; above it, the dwell of a held output is RUNNING, also where it was ELAPSED (log
entry 18). -/
def State.dwellWritten (s : State) (o : OutId) : State :=
  if due (s.outGrant o).grantTime s.timebase (s.params.dwell * 1000) then s.dwellElapsed o
  else if (s.outGrant o).holder.isSome then s.setOutGrant o { s.outGrant o with dwellRunning := true }
  else s

/-! ### VIEW REQUEST and VIEW RELEASE (R155–R157) -/

/-- The view a request's bytes name, or none for a camera above 3: a layout code other than SPLIT is taken as FULL, in
which camera B is not read (R155). -/
def requestedView (layout camA camB : Byte) : Option View :=
  match CamId.ofNat? camA.toNat with
  | none => none
  | some a =>
    if layout = 1 then (CamId.ofNat? camB.toNat).map (fun b => .split a b) else some (.full a)

/-- The priority clamped into 1 … the requester's maximum (R155). -/
def clampPriority (priority maxPriority : Nat) : Nat := min (max priority 1) maxPriority

/-- The hold clamped to 60,000 ms (R155). -/
def clampHold (hold : Nat) : Nat := min hold 60000

/-- The answer to a request taken into the table (R156). -/
def requestResult (isHolder wasClamped : Bool) : Result :=
  if isHolder then .granted else if wasClamped then .clamped else .waiting

/-- A VIEW REQUEST message (R155, R156). -/
def viewRequestMessage (node output layout camA camB priority : Byte) (hold : Word) (s : State) : State :=
  fromNode node (fun s => s.answer node output .request .unknownRequester) (fun k s =>
    match OutId.ofNat? output.toNat with
    | none => s.answer node output .request .badField
    | some o =>
      match requestedView layout camA camB with
      | none => s.answer node output .request .badField
      | some v =>
        let p := clampPriority priority.toNat (s.params.maxPriority.get k)
        let h := clampHold hold.toNat
        let wasClamped := decide (p ≠ priority.toNat) || decide (h ≠ hold.toNat)
        let s := s.receive o (.master k) v p h
        s.answer node output .request
          (requestResult (decide ((s.outGrant o).holder = some (.master k))) wasClamped)) s

/-- VIEW_REQUEST (R156). -/
def execViewRequest (node output layout camA camB priority : Byte) (hold : Word) (s : State) :
    Host.Outcome State Fault Refusal :=
  event (onReceipt (viewRequestMessage node output layout camA camB priority hold)) s

/-- A VIEW RELEASE message (R157). -/
def viewReleaseMessage (node output : Byte) (s : State) : State :=
  fromNode node (fun s => s.answer node output .release .unknownRequester) (fun k s =>
    match OutId.ofNat? output.toNat with
    | none => s.answer node output .release .badField
    | some o =>
      match s.entry? o (.master k) with
      | none => s.answer node output .release .notHeld
      | some _ => (s.remove o (.master k)).answer node output .release .ok) s

/-- VIEW_RELEASE (R157). -/
def execViewRelease (node output : Byte) (s : State) : Host.Outcome State Fault Refusal :=
  event (onReceipt (viewReleaseMessage node output)) s

/-! ### Expiry (R162, R166, R167) -/

/-- Whether an entry is timed and its hold has run out (R166). -/
def Entry.expired (e : Entry) (now : Time) : Bool := decide (0 < e.hold) && due e.receipt now (e.hold * 1000)

/-- TIMED_EXPIRY (R166). -/
def execTimedExpiry (r : Requester) (o : OutId) (s : State) : Host.Outcome State Fault Refusal :=
  event (fun s =>
    match s.entry? o r with
    | none => s
    | some e => if e.expired s.timebase then s.remove o r else s) s

/-- Whether an entry is persistent. -/
def persistent (e : Option Entry) : Bool :=
  match e with
  | none => false
  | some e => decide (e.hold = 0)

/-- Whether requester `k` has a persistent entry on an output. -/
def State.hasPersistent (s : State) (k : ReqSlot) (o : OutId) : Bool := persistent (s.entry? o (.master k))

/-- How long requester `k` has been silent, if it is watched for silence (R167). -/
def State.silence? (s : State) (k : ReqSlot) : Option Nat :=
  if s.hasPersistent k .a || s.hasPersistent k .b then
    (s.arbiter.lastHeard.get k).map (fun t => elapsed t s.timebase)
  else none

/-- Requester `k`'s entry on an output taken out of the table, if it is persistent. -/
def State.dropPersistent (s : State) (k : ReqSlot) (o : OutId) : State :=
  if s.hasPersistent k o then s.setEntry o (.master k) none else s

/-- The keep-alive expiry of a requester (R167). Output A is arbitrated before output B: DESIGN CHOICE (log entry 31). -/
def State.expire (s : State) (k : ReqSlot) : State :=
  let onA := s.hasPersistent k .a
  let onB := s.hasPersistent k .b
  let s := (s.dropPersistent k .a).dropPersistent k .b
  let n := bump (s.arbiter.expiryCount.get k)
  let s := s.setArbiter { s.arbiter with expiryCount := s.arbiter.expiryCount.set k n }
  let s := s.notice .requestExpired k.num n
  let s := if onA then s.afterExpiry .a (.master k) else s
  if onB then s.afterExpiry .b (.master k) else s

/-- KEEPALIVE_EXPIRY (R167): KEEPALIVE ms since the requester was last heard. -/
def execKeepaliveExpiry (k : ReqSlot) (s : State) : Host.Outcome State Fault Refusal :=
  event (fun s =>
    match s.silence? k with
    | none => s
    | some t => if s.params.keepalive * 1000 ≤ t then s.expire k else s) s

/-- A write of KEEPALIVE on one requester: its expiry takes place when the new value is below its silence (R167). -/
def State.keepaliveWritten (s : State) (k : ReqSlot) : State :=
  match s.silence? k with
  | none => s
  | some t => if s.params.keepalive * 1000 < t then s.expire k else s

/-- DWELL_EXPIRY (R162). -/
def execDwellExpiry (o : OutId) (s : State) : Host.Outcome State Fault Refusal :=
  event (fun s => if s.dwellOver o then s.dwellElapsed o else s) s

/-! ### KEEPALIVE (R152) -/

/-- A KEEPALIVE message: a refresh alone. -/
def keepaliveMessage (node : Byte) (s : State) : State := fromNode node id (fun _ s => s) s

/-- KEEPALIVE (R152). -/
def execKeepalive (node : Byte) (s : State) : Host.Outcome State Fault Refusal :=
  event (onReceipt (keepaliveMessage node)) s

/-! ### Writes to a requester slot (R153) -/

/-- A slot's node code has been changed. Output A before output B: DESIGN CHOICE (log entry 31). -/
def State.nodeCodeChanged (s : State) (k : ReqSlot) : State :=
  let s := (s.remove .a (.master k)).remove .b (.master k)
  s.setArbiter { s.arbiter with lastHeard := s.arbiter.lastHeard.set k none }

/-- Arbitration after the priority of requester `r`'s entry was lowered: a holder below another entry loses the output
to the best; one that stays only asks for a VIEW STATUS. -/
def State.afterLowering (s : State) (o : OutId) (r : Requester) (e : Entry) : State :=
  if (s.outGrant o).holder = some r then
    if (s.requests o).othersPriority r ≤ e.priority then (s.ask (.viewStatus o)).formCandidate o else s.grantBest o
  else s.formCandidate o

/-- Requester `k`'s entry on an output is lowered to a maximum it stands above. -/
def State.lowerEntry (s : State) (k : ReqSlot) (maxPriority : Nat) (o : OutId) : State :=
  match s.entry? o (.master k) with
  | none => s
  | some e =>
    if maxPriority < e.priority then
      let e' := { e with priority := maxPriority }
      (s.setEntry o (.master k) (some e')).afterLowering o (.master k) e'
    else s

/-- A slot's max priority has been lowered. Output A before output B: DESIGN CHOICE (log entry 31). -/
def State.maxPriorityLowered (s : State) (k : ReqSlot) (maxPriority : Nat) : State :=
  (s.lowerEntry k maxPriority .a).lowerEntry k maxPriority .b

/-! ### The auger requester (R169, R170) -/

/-- The auger entry is created, or replaced, on AUGER_OUTPUT from the auger parameters. -/
def State.augerCreate (s : State) : State :=
  s.receive s.params.augerOutput .auger (.full s.params.augerCamera) s.params.augerPriority 0

/-- The auger entry is removed from every output it stands on. -/
def State.augerRemove (s : State) : State := (s.remove .a .auger).remove .b .auger

/-- Channel 2 signals a change of its auger state (R169). -/
def State.augerChanged (s : State) (old new : AugerState) : State :=
  if new = .outside ∧ old ≠ .outside then (if 0 < s.params.augerPriority then s.augerCreate else s)
  else if old = .outside ∧ new ≠ .outside then s.augerRemove
  else s

/-- Whether the auger entry exists on an output. -/
def State.augerOn (s : State) (o : OutId) : Bool := (s.entry? o .auger).isSome

/-- A changed AUGER_PRIORITY (R170). -/
def State.augerPriorityChanged (s : State) : State :=
  if s.params.augerPriority = 0 then s.augerRemove
  else if s.augerOn .a || s.augerOn .b || (s.channel .ec2).auger = .outside then s.augerCreate
  else s

/-- A changed AUGER_CAMERA (R170). -/
def State.augerCameraChanged (s : State) : State :=
  if s.augerOn .a || s.augerOn .b then s.augerCreate else s

/-- A changed AUGER_OUTPUT: the entry moves to the other output (R170). -/
def State.augerOutputChanged (s : State) : State :=
  if s.augerOn .a || s.augerOn .b then s.augerRemove.augerCreate else s

end Sys2Proof.Machine
end

