-- ==== Sys2Proof/Machine/Encoders.lean ====
section
/-! DEFINITION. Shaft encoder channels (02): counts and positions, the index input, channel states, the auger state, the
channel's reports and signals, its commands, and the meanings of the edge and stop-watch commands. -/

namespace Sys2Proof.Machine

/-! ### Counts (R25, R26) -/

/-- The direction of an edge that leads to the levels `a`, `b`: UP is A rising with B low, B rising with A high, A
falling with B high, B falling with A low (R25). `onA` says that A changed. -/
def edgeDir (onA a b : Bool) : Dir := if (if onA then a != b else a == b) then .up else .down

/-- Whether EDGE evaluates an edge of A (`onA`) or B that leads to the level `level` (R25). -/
def EdgeMode.evaluates (m : EdgeMode) (onA level : Bool) : Bool :=
  match m with
  | .x1 => onA && level
  | .x2 => onA
  | .x4 => true

/-- The limits of a LINEAR position (R28). -/
def linearMin : Int := -8388608
def linearMax : Int := 8388607

/-- A position after a count of +1 or −1 in MODULAR mode (R27). -/
def wrapCount (cpr : Nat) (position step : Int) : Int := (position + step) % (cpr : Int)

/-- The step of a direction. -/
def Dir.step : Dir → Int
  | .up => 1
  | .down => -1

/-- A count applied to the position (R27, R28). -/
def Channel.applyCount (ch : Channel) (p : ChanParams) (d : Dir) : Channel :=
  match p.mode with
  | .modular => { ch with position := wrapCount p.cpr ch.position d.step }
  | .linear =>
    let v := ch.position + d.step
    if v < linearMin then { ch with position := linearMin, saturationCount := bump ch.saturationCount }
    else if linearMax < v then { ch with position := linearMax, saturationCount := bump ch.saturationCount }
    else { ch with position := v }

/-- The direction-change mark is set; a RUNNING channel drops to HOMED (R36). -/
def Channel.reverse (ch : Channel) : Channel :=
  if ch.state = .running then { ch with dirChange := true, state := .homed, period := none }
  else { ch with dirChange := true }

/-- An evaluated count: against last direction it sets the mark, and HYSTERESIS suppresses it (R26). -/
def Channel.count (ch : Channel) (p : ChanParams) (d : Dir) : Channel :=
  if d = ch.lastDir then ch.applyCount p d
  else if p.hysteresis then { ch.reverse with lastDir := d }
  else { ch.reverse.applyCount p d with lastDir := d }

/-! ### Auger state (R39) -/

/-- The auger state of a LINEAR channel at homing. -/
def augerAtHoming (p : ChanParams) (position : Int) : AugerState :=
  if p.outThreshold ≤ position then .outside else .inside

/-- The auger state evaluated at a position, with its threshold band. -/
def augerEvaluated (p : ChanParams) (position : Int) (now : AugerState) : AugerState :=
  match now with
  | .inside => if p.outThreshold ≤ position then .outside else .inside
  | .outside => if position ≤ p.inThreshold then .inside else .outside
  | .unknown => augerAtHoming p position

/-- The channel with its auger state evaluated: on a HOMED LINEAR channel alone. -/
def Channel.evalAuger (ch : Channel) (p : ChanParams) : Channel :=
  if p.mode = .linear ∧ ch.state = .homed then { ch with auger := augerEvaluated p ch.position ch.auger } else ch

/-! ### Edges (R24, R25) -/

/-- The accepted levels of A and B become `a` and `b` in one sample of an enabled channel. -/
def Channel.quadrature (ch : Channel) (p : ChanParams) (a b : Bool) : Channel :=
  let onA := a != ch.levels.a
  let onB := b != ch.levels.b
  let ch' := { ch with levels := { ch.levels with a := a, b := b } }
  if onA && onB then { ch' with quadErrorCount := bump ch.quadErrorCount }
  else if onA || onB then
    if p.edge.evaluates onA (if onA then a else b) then
      (ch'.count p (edgeDir onA a b)).evalAuger p
    else ch'
  else ch'

/-! ### The index input (R29–R35) -/

/-- The index value: INDEX_VALUE modulo CPR on a MODULAR channel, INDEX_VALUE on a LINEAR one (R31). -/
def ChanParams.indexPosition (p : ChanParams) : Int :=
  match p.mode with
  | .modular => p.indexValue % (p.cpr : Int)
  | .linear => p.indexValue

/-- Whether a rising index edge is an index glitch (R29), in every state of the channel: in STOPPED too, where R37 says that
none can arise, an edge about 2^32 µs after the last index is one, by R1's difference. DEDUCED (log entry 33). -/
def Channel.isGlitch (ch : Channel) (p : ChanParams) (now : Time) : Bool :=
  match p.mode, ch.lastIndex with
  | .modular, some t => decide (elapsed t now < p.minPeriod)
  | _, _ => false

/-- The capture of the pre-index position (R30). -/
def Channel.capture (ch : Channel) (p : ChanParams) (now : Time) : Channel :=
  if p.captureHold && ch.captureHeld then ch
  else { ch with captureCount := ch.position, captureTime := now, captureHeld := p.captureHold }

/-- The slip of a pre-index position, within −floor(CPR/2) … CPR − floor(CPR/2) − 1 (R32). -/
def slipOf (p : ChanParams) (position : Int) : Int :=
  (position - p.indexValue + (p.cpr / 2 : Nat)) % (p.cpr : Int) - (p.cpr / 2 : Nat)

/-- Whether an accepted index finds a slip beyond SLIP_TOL: on a MODULAR channel, but at the first accepted index since
enable (R32). -/
def Channel.slips (ch : Channel) (p : ChanParams) : Bool :=
  match p.mode, ch.lastIndex with
  | .modular, some _ => decide ((p.slipTol : Int) < |slipOf p ch.position|)
  | _, _ => false

/-- Whether an accepted index re-zeros the position (R31). -/
def Channel.rezeros (ch : Channel) (p : ChanParams) : Bool :=
  match p.indexMode with
  | .every => true
  | .once => ch.armed
  | .off => false

/-- The re-zero, when it is called for; a ONCE re-zero disarms (R31). -/
def Channel.rezero (ch : Channel) (p : ChanParams) : Channel :=
  if ch.rezeros p then
    { ch with position := p.indexPosition, armed := ch.armed && decide (p.indexMode ≠ .once) }
  else ch

/-- The period an accepted index measures, when its period test passes (R35). -/
def Channel.periodTest (ch : Channel) (p : ChanParams) (now : Time) : Option Nat :=
  match ch.lastIndex with
  | none => none
  | some t =>
    if !ch.dirChange && decide (p.minPeriod ≤ elapsed t now) && decide (elapsed t now ≤ p.maxPeriod) then
      some (elapsed t now)
    else none

/-- The channel with the outcome of a period test: RUNNING with the period, or HOMED without. -/
def Channel.timed (ch : Channel) (period : Option Nat) : Channel :=
  match period with
  | some t => { ch with state := .running, period := some t }
  | none => { ch with state := .homed, period := none }

/-- The state step of an accepted index (R34): `uncorrected` says that a slip will not be corrected, `zeroed` that step 3
re-zeroed. -/
def Channel.stateStep (ch : Channel) (p : ChanParams) (now : Time) (uncorrected zeroed : Bool) : Channel :=
  match p.mode with
  | .linear =>
    match ch.state with
    | .unhomed => { ch with state := .homed }
    | .homed => ch
    | .disabled => ch
    | .running => ch
    | .stopped => ch
    | .slipped => ch
  | .modular =>
    match ch.state with
    | .disabled => ch
    | .unhomed => { ch with state := .homed, period := none }
    | .homed =>
      if uncorrected then { ch with state := .slipped, period := none } else ch.timed (ch.periodTest p now)
    | .running =>
      if uncorrected then { ch with state := .slipped, period := none } else ch.timed (ch.periodTest p now)
    | .stopped => { ch with state := if uncorrected then .slipped else .homed, period := none }
    | .slipped => { ch with state := if zeroed then .homed else .slipped, period := none }

/-- An accepted index, in the order of R29. -/
def Channel.acceptIndex (ch : Channel) (p : ChanParams) (now : Time) : Channel :=
  let slip := ch.slips p
  let zeroed := ch.rezeros p
  let ch1 := ch.capture p now
  let ch2 := { ch1 with slipCount := if slip then bump ch.slipCount else ch.slipCount }
  let ch3 := ch2.rezero p
  let ch4 := ch3.stateStep p now (slip && !zeroed) zeroed
  let ch5 := { ch4 with lastIndex := some now, dirChange := false }
  ch5.evalAuger p

/-- A rising index edge of an enabled channel (R29). -/
def Channel.risingIndex (ch : Channel) (p : ChanParams) (now : Time) : Channel :=
  if p.indexMode = .off then ch
  else if ch.isGlitch p now then { ch with glitchCount := bump ch.glitchCount }
  else ch.acceptIndex p now

/-! ### What a change of a channel sets off (R39, R46) -/

/-- Channel `e` becomes `ch`: a change of its state or auger state asks for an ENCODER REPORT (R46), and a change of
channel 2's auger state is signalled to the arbiter (R39). -/
def State.changeChannel (s : State) (e : ChanId) (ch : Channel) : State :=
  let old := s.channel e
  let s := s.setChannel e ch
  let s := if old.state ≠ ch.state ∨ old.auger ≠ ch.auger then s.ask (.encoderReport e) else s
  if e = .ec2 then s.augerChanged old.auger ch.auger else s

/-- The fault notice of a count that rose (R32, R37). -/
def State.noticeRise (s : State) (e : ChanId) (code : FaultCode) (rose : Bool) (count : Nat) : State :=
  if rose then s.notice code e.num count else s

/-- QUADRATURE_EDGE (R24, R25): in DISABLED the levels are tracked alone. -/
def execQuadratureEdge (e : ChanId) (a b : Bool) (s : State) : Host.Outcome State Fault Refusal :=
  event (fun s =>
    let ch := s.channel e
    if ch.state = .disabled then s.setChannel e { ch with levels := { ch.levels with a := a, b := b } }
    else s.changeChannel e (ch.quadrature (s.chanParams e) a b)) s

/-- INDEX_EDGE (R24, R29): the accepted index level becomes `level`; only a rise on an enabled channel is judged. -/
def execIndexEdge (e : ChanId) (level : Bool) (s : State) : Host.Outcome State Fault Refusal :=
  event (fun s =>
    let ch := { s.channel e with levels := { (s.channel e).levels with index := level } }
    let rises := level && !(s.channel e).levels.index
    if ch.state = .disabled || !rises then s.setChannel e ch
    else
      let p := s.chanParams e
      let slipped := decide (p.indexMode ≠ .off) && !ch.isGlitch p s.timebase && ch.slips p
      (s.noticeRise e .encoderSlip slipped (bump ch.slipCount)).changeChannel e (ch.risingIndex p s.timebase)) s

/-! ### The stop watch (R37) -/

/-- How long a channel's stop watch has run: on a HOMED or RUNNING MODULAR channel, since its last index. -/
def Channel.watched? (ch : Channel) (p : ChanParams) (now : Time) : Option Nat :=
  if p.mode = .modular ∧ (ch.state = .homed ∨ ch.state = .running) then ch.lastIndex.map (fun t => elapsed t now)
  else none

/-- The channel enters STOPPED. -/
def State.stopChannel (s : State) (e : ChanId) : State :=
  let ch := s.channel e
  let n := bump ch.stopCount
  (s.notice .encoderStopped e.num n).changeChannel e { ch with state := .stopped, period := none, stopCount := n }

/-- STOP_WATCH_EXPIRY (R37): MAX_PERIOD µs since the last index. -/
def execStopWatchExpiry (e : ChanId) (s : State) : Host.Outcome State Fault Refusal :=
  event (fun s =>
    match (s.channel e).watched? (s.chanParams e) s.timebase with
    | none => s
    | some t => if (s.chanParams e).maxPeriod ≤ t then s.stopChannel e else s) s

/-! ### Commands (R41–R43) -/

/-- CLEAR-POSITION (R41). -/
def State.clearPosition (s : State) (e : ChanId) : State :=
  let p := s.chanParams e
  let ch := { s.channel e with position := if p.clearReload then p.indexPosition else 0 }
  s.changeChannel e (ch.evalAuger p)

/-- ARM-INDEX (R42). -/
def State.armIndex (s : State) (e : ChanId) : State := s.setChannel e { s.channel e with armed := true }

/-- RELEASE-CAPTURE (R42). -/
def State.releaseCapture (s : State) (e : ChanId) : State := s.setChannel e { s.channel e with captureHeld := false }

/-- CLEAR-COUNTS of a channel (R43). -/
def State.clearChannelCounts (s : State) (e : ChanId) : State :=
  s.setChannel e
    { s.channel e with
      slipCount := 0, quadErrorCount := 0, glitchCount := 0, saturationCount := 0, stopCount := 0 }

/-! ### Writes (R33, R37, R40, R44) -/

/-- ENABLE has been written from 0 to 1 (R33). -/
def State.enableChannel (s : State) (e : ChanId) : State :=
  let ch := s.channel e
  s.changeChannel e
    { ch with
      state := .unhomed, lastIndex := none, period := none, dirChange := false
      armed := ch.armed || decide ((s.chanParams e).indexMode = .once) }

/-- ENABLE has been written from 1 to 0 (R33). -/
def State.disableChannel (s : State) (e : ChanId) : State :=
  s.changeChannel e { s.channel e with state := .disabled, period := none, auger := .unknown }

/-- MODE or CPR has been written: a MODULAR channel's position is brought within 0 … CPR−1 (R44). -/
def State.reboundPosition (s : State) (e : ChanId) : State :=
  let p := s.chanParams e
  match p.mode with
  | .modular => s.setChannel e { s.channel e with position := (s.channel e).position % (p.cpr : Int) }
  | .linear => s

/-- A MAX_PERIOD below the time already passed makes the channel STOPPED at the write (R37), also where the value was already
held (log entry 34). -/
def State.maxPeriodWritten (s : State) (e : ChanId) : State :=
  match (s.channel e).watched? (s.chanParams e) s.timebase with
  | none => s
  | some t => if (s.chanParams e).maxPeriod < t then s.stopChannel e else s

/-- A threshold write is followed by the evaluation of the auger state (R40). -/
def State.thresholdWritten (s : State) (e : ChanId) : State :=
  s.changeChannel e ((s.channel e).evalAuger (s.chanParams e))

end Sys2Proof.Machine
end

