-- ==== Sys2Proof/Machine/Operands.lean ====
section
/-! DEFINITION. Operands of the parameter messages: the writable parameters with their numbers, ranges, guards and stored
values (R203), and how a written value is brought into range (R206). -/

namespace Sys2Proof.Machine

/-- A camera's parameters, in the order of their offsets. -/
inductive CamParam
  | linkEnable | linkRate | tapOverride | tapUpdateFrames | tapGate | concealLimit | nominalX | nominalY | phaseSource
  | exposureDelay | searchRx | searchRy | matchRatio | acceptRatio | holdLimit | refreshCount | driftShift | learnShift
  | minConf | outlierLimit | staleLimit
deriving DecidableEq, Repr

/-- An encoder channel's parameters, in the order of their offsets. -/
inductive ChanParam
  | enable | mode | edge | hysteresis | cpr | indexMode | indexValue | captureHold | clearMode | slipTol | minPeriod
  | maxPeriod | outThreshold | inThreshold
deriving DecidableEq, Repr

/-- An output's parameters, in the order of their offsets. -/
inductive OutParam | defaultLayout | defaultCamA | defaultCamB | rasterRate
deriving DecidableEq, Repr

/-- A writable parameter. -/
inductive ParamId
  | cam (c : CamId) (p : CamParam)
  | chan (e : ChanId) (p : ChanParam)
  | out (o : OutId) (p : OutParam)
  | dwell
  | keepalive
  | augerOutput
  | augerCamera
  | augerPriority
  | nodeCode (k : ReqSlot)
  | maxPriority (k : ReqSlot)
deriving DecidableEq, Repr

def CamParam.all : List CamParam :=
  [.linkEnable, .linkRate, .tapOverride, .tapUpdateFrames, .tapGate, .concealLimit, .nominalX, .nominalY, .phaseSource,
    .exposureDelay, .searchRx, .searchRy, .matchRatio, .acceptRatio, .holdLimit, .refreshCount, .driftShift,
    .learnShift, .minConf, .outlierLimit, .staleLimit]

def ChanParam.all : List ChanParam :=
  [.enable, .mode, .edge, .hysteresis, .cpr, .indexMode, .indexValue, .captureHold, .clearMode, .slipTol, .minPeriod,
    .maxPeriod, .outThreshold, .inThreshold]

def OutParam.all : List OutParam := [.defaultLayout, .defaultCamA, .defaultCamB, .rasterRate]

/-! ### Numbers (R203) -/

/-- The number of a parameter: its group's base, and the place of its offset in the group. -/
def ParamId.number : ParamId → Nat
  | .cam c p => 0x100 + 0x20 * c.num + CamParam.all.idxOf p
  | .chan e p => 0x200 + 0x20 * e.num + ChanParam.all.idxOf p
  | .out o p => 0x300 + 0x10 * o.num + OutParam.all.idxOf p
  | .dwell => 0x400
  | .keepalive => 0x401
  | .augerOutput => 0x402
  | .augerCamera => 0x403
  | .augerPriority => 0x404
  | .nodeCode k => 0x410 + 2 * (k.num - 1)
  | .maxPriority k => 0x411 + 2 * (k.num - 1)

/-- A parameter's number as a message carries it. -/
def ParamId.word (id : ParamId) : Word := BitVec.ofNat 16 id.number

/-- The writable parameter a number names, if any. -/
def paramOf (n : Nat) : Option ParamId :=
  if 0x100 ≤ n ∧ n < 0x180 then
    match CamId.ofNat? ((n - 0x100) / 0x20), CamParam.all[(n - 0x100) % 0x20]? with
    | some c, some p => some (.cam c p)
    | _, _ => none
  else if 0x200 ≤ n ∧ n < 0x260 then
    match ChanId.ofNat? ((n - 0x200) / 0x20), ChanParam.all[(n - 0x200) % 0x20]? with
    | some e, some p => some (.chan e p)
    | _, _ => none
  else if 0x300 ≤ n ∧ n < 0x320 then
    match OutId.ofNat? ((n - 0x300) / 0x10), OutParam.all[(n - 0x300) % 0x10]? with
    | some o, some p => some (.out o p)
    | _, _ => none
  else if 0x400 ≤ n ∧ n < 0x405 then
    [ParamId.dwell, .keepalive, .augerOutput, .augerCamera, .augerPriority][n - 0x400]?
  else if 0x410 ≤ n ∧ n < 0x41C then
    (ReqSlot.all[(n - 0x410) / 2]?).map (fun k => if n % 2 = 0 then .nodeCode k else .maxPriority k)
  else none

/-! ### Ranges and guards (R203) -/

def CamParam.range : CamParam → Int × Int
  | .linkEnable => (0, 1)
  | .linkRate => (10000, 40000)
  | .tapOverride => (-1, 127)
  | .tapUpdateFrames => (1, 255)
  | .tapGate => (0, 1)
  | .concealLimit => (0, 120)
  | .nominalX => (0, 96)
  | .nominalY => (0, 64)
  | .phaseSource => (0, 2)
  | .exposureDelay => (-30000, 30000)
  | .searchRx => (2, 16)
  | .searchRy => (2, 16)
  | .matchRatio => (1, 255)
  | .acceptRatio => (0, 255)
  | .holdLimit => (0, 120)
  | .refreshCount => (8, 250)
  | .driftShift => (2, 8)
  | .learnShift => (1, 6)
  | .minConf => (1, 15)
  | .outlierLimit => (16, 768)
  | .staleLimit => (100, 2000)

def ChanParam.range : ChanParam → Int × Int
  | .enable => (0, 1)
  | .mode => (0, 1)
  | .edge => (0, 2)
  | .hysteresis => (0, 1)
  | .cpr => (16, 4096)
  | .indexMode => (0, 2)
  | .indexValue => (-8388608, 8388607)
  | .captureHold => (0, 1)
  | .clearMode => (0, 1)
  | .slipTol => (0, 15)
  | .minPeriod => (2000, 100000)
  | .maxPeriod => (100000, 4000000)
  | .outThreshold => (-8388607, 8388607)
  | .inThreshold => (-8388608, 8388606)

def OutParam.range : OutParam → Int × Int
  | .defaultLayout => (0, 1)
  | .defaultCamA => (0, 3)
  | .defaultCamB => (0, 3)
  | .rasterRate => (50, 60)

/-- The range of a parameter's values or codes. -/
def ParamId.range : ParamId → Int × Int
  | .cam _ p => p.range
  | .chan _ p => p.range
  | .out _ p => p.range
  | .dwell => (0, 5000)
  | .keepalive => (300, 5000)
  | .augerOutput => (0, 1)
  | .augerCamera => (0, 3)
  | .augerPriority => (0, 7)
  | .nodeCode _ => (0, 254)
  | .maxPriority _ => (1, 7)

/-- Whether a parameter is setup-guarded. -/
def ParamId.guarded : ParamId → Bool
  | .cam _ p => [CamParam.linkRate, .tapOverride, .nominalX, .nominalY, .phaseSource, .exposureDelay].contains p
  | .chan _ p => [ChanParam.mode, .edge, .cpr, .outThreshold, .inThreshold].contains p
  | .out _ _ => false
  | .dwell => false
  | .keepalive => false
  | .augerOutput => false
  | .augerCamera => false
  | .augerPriority => false
  | .nodeCode _ => true
  | .maxPriority _ => true

/-! ### Stored values and codes -/

def boolCode (b : Bool) : Int := if b then 1 else 0
def PhaseSource.code : PhaseSource → Int
  | .none => 0 | .ec0 => 1 | .ec1 => 2
def ChanMode.code : ChanMode → Int
  | .modular => 0 | .linear => 1
def EdgeMode.code : EdgeMode → Int
  | .x1 => 0 | .x2 => 1 | .x4 => 2
def IndexMode.code : IndexMode → Int
  | .off => 0 | .once => 1 | .every => 2

def PhaseSource.ofCode (v : Int) : PhaseSource := if v = 0 then .none else if v = 1 then .ec0 else .ec1
def ChanMode.ofCode (v : Int) : ChanMode := if v = 0 then .modular else .linear
def EdgeMode.ofCode (v : Int) : EdgeMode := if v = 0 then .x1 else if v = 1 then .x2 else .x4
def IndexMode.ofCode (v : Int) : IndexMode := if v = 0 then .off else if v = 1 then .once else .every
def Layout.ofCode (v : Int) : Layout := if v = 0 then .full else .split
def camOfCode (v : Int) : CamId := if v = 0 then .cam0 else if v = 1 then .cam1 else if v = 2 then .cam2 else .cam3
def outOfCode (v : Int) : OutId := if v = 0 then .a else .b

def CamParams.read (p : CamParams) : CamParam → Int
  | .linkEnable => boolCode p.linkEnable
  | .linkRate => p.linkRate
  | .tapOverride => p.tapOverride
  | .tapUpdateFrames => p.tapUpdateFrames
  | .tapGate => boolCode p.tapGate
  | .concealLimit => p.concealLimit
  | .nominalX => p.nominalX
  | .nominalY => p.nominalY
  | .phaseSource => p.phaseSource.code
  | .exposureDelay => p.exposureDelay
  | .searchRx => p.searchRx
  | .searchRy => p.searchRy
  | .matchRatio => p.matchRatio
  | .acceptRatio => p.acceptRatio
  | .holdLimit => p.holdLimit
  | .refreshCount => p.refreshCount
  | .driftShift => p.driftShift
  | .learnShift => p.learnShift
  | .minConf => p.minConf
  | .outlierLimit => p.outlierLimit
  | .staleLimit => p.staleLimit

def CamParams.write (p : CamParams) (v : Int) : CamParam → CamParams
  | .linkEnable => { p with linkEnable := decide (v = 1) }
  | .linkRate => { p with linkRate := v.toNat }
  | .tapOverride => { p with tapOverride := v }
  | .tapUpdateFrames => { p with tapUpdateFrames := v.toNat }
  | .tapGate => { p with tapGate := decide (v = 1) }
  | .concealLimit => { p with concealLimit := v.toNat }
  | .nominalX => { p with nominalX := v.toNat }
  | .nominalY => { p with nominalY := v.toNat }
  | .phaseSource => { p with phaseSource := .ofCode v }
  | .exposureDelay => { p with exposureDelay := v }
  | .searchRx => { p with searchRx := v.toNat }
  | .searchRy => { p with searchRy := v.toNat }
  | .matchRatio => { p with matchRatio := v.toNat }
  | .acceptRatio => { p with acceptRatio := v.toNat }
  | .holdLimit => { p with holdLimit := v.toNat }
  | .refreshCount => { p with refreshCount := v.toNat }
  | .driftShift => { p with driftShift := v.toNat }
  | .learnShift => { p with learnShift := v.toNat }
  | .minConf => { p with minConf := v.toNat }
  | .outlierLimit => { p with outlierLimit := v.toNat }
  | .staleLimit => { p with staleLimit := v.toNat }

def ChanParams.read (p : ChanParams) : ChanParam → Int
  | .enable => boolCode p.enable
  | .mode => p.mode.code
  | .edge => p.edge.code
  | .hysteresis => boolCode p.hysteresis
  | .cpr => p.cpr
  | .indexMode => p.indexMode.code
  | .indexValue => p.indexValue
  | .captureHold => boolCode p.captureHold
  | .clearMode => boolCode p.clearReload
  | .slipTol => p.slipTol
  | .minPeriod => p.minPeriod
  | .maxPeriod => p.maxPeriod
  | .outThreshold => p.outThreshold
  | .inThreshold => p.inThreshold

def ChanParams.write (p : ChanParams) (v : Int) : ChanParam → ChanParams
  | .enable => { p with enable := decide (v = 1) }
  | .mode => { p with mode := .ofCode v }
  | .edge => { p with edge := .ofCode v }
  | .hysteresis => { p with hysteresis := decide (v = 1) }
  | .cpr => { p with cpr := v.toNat }
  | .indexMode => { p with indexMode := .ofCode v }
  | .indexValue => { p with indexValue := v }
  | .captureHold => { p with captureHold := decide (v = 1) }
  | .clearMode => { p with clearReload := decide (v = 1) }
  | .slipTol => { p with slipTol := v.toNat }
  | .minPeriod => { p with minPeriod := v.toNat }
  | .maxPeriod => { p with maxPeriod := v.toNat }
  | .outThreshold => { p with outThreshold := v, inThreshold := min p.inThreshold (v - 1) }
  | .inThreshold => { p with inThreshold := v }

def OutParams.read (p : OutParams) : OutParam → Int
  | .defaultLayout => p.defaultLayout.code
  | .defaultCamA => p.defaultCamA.num
  | .defaultCamB => p.defaultCamB.num
  | .rasterRate => p.rasterRate

def OutParams.write (p : OutParams) (v : Int) : OutParam → OutParams
  | .defaultLayout => { p with defaultLayout := .ofCode v }
  | .defaultCamA => { p with defaultCamA := camOfCode v }
  | .defaultCamB => { p with defaultCamB := camOfCode v }
  | .rasterRate => { p with rasterRate := v.toNat }

/-- The value a parameter holds, as a message carries it. -/
def Params.read (p : Params) : ParamId → Int
  | .cam c q => (p.cams.get c).read q
  | .chan e q => (p.chans.get e).read q
  | .out o q => (p.outs.get o).read q
  | .dwell => p.dwell
  | .keepalive => p.keepalive
  | .augerOutput => p.augerOutput.num
  | .augerCamera => p.augerCamera.num
  | .augerPriority => p.augerPriority
  | .nodeCode k => p.nodeCode.get k
  | .maxPriority k => p.maxPriority.get k

/-- The parameters with a value stored; storing OUT_THRESHOLD keeps IN_THRESHOLD below it (R40). -/
def Params.write (p : Params) (id : ParamId) (v : Int) : Params :=
  match id with
  | .cam c q => { p with cams := p.cams.set c ((p.cams.get c).write v q) }
  | .chan e q => { p with chans := p.chans.set e ((p.chans.get e).write v q) }
  | .out o q => { p with outs := p.outs.set o ((p.outs.get o).write v q) }
  | .dwell => { p with dwell := v.toNat }
  | .keepalive => { p with keepalive := v.toNat }
  | .augerOutput => { p with augerOutput := outOfCode v }
  | .augerCamera => { p with augerCamera := camOfCode v }
  | .augerPriority => { p with augerPriority := v.toNat }
  | .nodeCode k => { p with nodeCode := p.nodeCode.set k v.toNat }
  | .maxPriority k => { p with maxPriority := p.maxPriority.set k v.toNat }

/-! ### Bringing a value into range (R206) -/

/-- A value brought to the nearest limit of its parameter's range. -/
def ParamId.clampTo (id : ParamId) (v : Int) : Int := clamp v id.range.1 id.range.2

/-- The value a write of `v` stores (R40, R206). -/
def Params.fit (p : Params) (id : ParamId) (v : Int) : Int :=
  match id with
  | .cam _ .nominalX => id.clampTo v - id.clampTo v % 2
  | .out _ .rasterRate => if v < 55 then 50 else 60
  | .chan e .inThreshold => min (id.clampTo v) ((p.chans.get e).outThreshold - 1)
  | _ => id.clampTo v

/-- Whether a stored write is answered CLAMPED: its value was changed, or it lowered the other threshold (R40, R206). -/
def Params.clampsWrite (p : Params) (id : ParamId) (v : Int) : Bool :=
  decide (p.fit id v ≠ v) ||
    match id with
    | .chan e .outThreshold => decide (p.fit id v ≤ (p.chans.get e).inThreshold)
    | _ => false

end Sys2Proof.Machine
end

