-- ==== Sys2Proof/Machine/Parameters.lean ====
section
/-! DEFINITION. The parameter table (11): the checks of a write, what a stored write sets off in the owning block, PARAM
WRITE messages, and the meanings of the rows that are writes of one parameter. Reading is in Status.lean. -/

namespace Sys2Proof.Machine

/-! ### What a stored write sets off (R4, R15, R33, R37, R40, R44, R78, R124, R129, R153, R161, R167, R170) -/

/-- A changed LINK_ENABLE (R4). -/
def State.linkEnableChanged (s : State) (c : CamId) (on : Bool) : State :=
  if on then
    if (s.link c).state = .down then s.setLink c ((s.link c).acquire 0 s.timebase) else s
  else
    let s := if (s.link c).state = .locked then s.linkDown c else s
    s.setLink c (s.link c).shutDown

/-- A write of TAP_OVERRIDE, whatever the value: an update falls due in LOCKED (R15). -/
def State.tapOverrideWritten (s : State) (c : CamId) : State := s.forceTapUpdate c

/-- A write of TAP_GATE from 1 to 0 applies a pending update (R15). -/
def State.tapGateCleared (s : State) (c : CamId) : State := s.applyPendingTap c

/-- A write of HOLD_LIMIT (R78). -/
def State.holdLimitWritten (s : State) (c : CamId) : State :=
  s.setScreen c { s.screen c with rejectedRun := min (s.screen c).rejectedRun (s.camParams c).holdLimit }

/-- A write of a camera's parameter, from `old` to `new`. -/
def State.camWritten (s : State) (c : CamId) (p : CamParam) (old new : Int) : State :=
  match p with
  | .linkEnable => if old = new then s else s.linkEnableChanged c (decide (new = 1))
  | .tapOverride => s.tapOverrideWritten c
  | .tapGate => if old = 1 ∧ new = 0 then s.tapGateCleared c else s
  | .holdLimit => s.holdLimitWritten c
  | .phaseSource => if old = new then s else s.clearTable c
  | _ => s

/-- A write of a channel's parameter, from `old` to `new`. -/
def State.chanWritten (s : State) (e : ChanId) (p : ChanParam) (old new : Int) : State :=
  match p with
  | .enable => if old = new then s else if new = 1 then s.enableChannel e else s.disableChannel e
  | .mode => let s := s.reboundPosition e; if old = new then s else s.clearBound e
  | .cpr => let s := s.reboundPosition e; if old = new then s else s.clearBound e
  | .maxPeriod => s.maxPeriodWritten e
  | .outThreshold => s.thresholdWritten e
  | .inThreshold => s.thresholdWritten e
  | _ => s

/-- A write of an output's parameter, from `old` to `new`: a change of RASTER_RATE to 60 starts the pattern afresh
(R129). -/
def State.outWritten (s : State) (o : OutId) (p : OutParam) (old new : Int) : State :=
  match p with
  | .rasterRate => if old ≠ new ∧ new = 60 then s.setOutput o { s.output o with patternFresh := true } else s
  | _ => s

/-- What a stored write, from `old` to `new`, sets off in the owning block. A write of DWELL acts on output A before output B
(DESIGN CHOICE, log entry 31), and a write of KEEPALIVE on requester slots 1 to 6 one after the other (DESIGN CHOICE, log
entry 30). Both act at every write, also of the value already held: DEDUCED (log entry 34). -/
def State.written (s : State) (id : ParamId) (old new : Int) : State :=
  match id with
  | .cam c p => s.camWritten c p old new
  | .chan e p => s.chanWritten e p old new
  | .out o p => s.outWritten o p old new
  | .dwell => (s.dwellWritten .a).dwellWritten .b
  | .keepalive => ReqSlot.all.foldl State.keepaliveWritten s
  | .augerOutput => if old = new then s else s.augerOutputChanged
  | .augerCamera => if old = new then s else s.augerCameraChanged
  | .augerPriority => if old = new then s else s.augerPriorityChanged
  | .nodeCode k => if old = new then s else s.nodeCodeChanged k
  | .maxPriority k => if new < old then s.maxPriorityLowered k new.toNat else s

/-! ### A write (R205) -/

/-- Whether a parameter is refused while its channel is enabled (R44). -/
def State.refusesBusy (s : State) (id : ParamId) : Bool :=
  match id with
  | .chan e .mode => (s.chanParams e).enable
  | .chan e .edge => (s.chanParams e).enable
  | .chan e .cpr => (s.chanParams e).enable
  | _ => false

/-- The result of a write of a known writable parameter (R205, steps 3 to 6). -/
def State.writeResult (s : State) (id : ParamId) (v : Int) : Result :=
  if id.guarded && !s.setup then .locked
  else if s.refusesBusy id then .busy
  else if s.params.clampsWrite id v then .clamped
  else .ok

/-- A write that passes: the value is stored and handed to its block. -/
def State.storeParam (s : State) (id : ParamId) (v : Int) : State :=
  (s.setParams (s.params.write id (s.params.fit id v))).written id (s.params.read id) (s.params.fit id v)

/-- A PARAM REPLY (R189). -/
def State.reply (s : State) (node : Byte) (number : Word) (res : Result) (v : Int) : State :=
  s.ask (.paramReply node number res (BitVec.ofInt 32 v))

/-- A write of a known writable parameter, with its reply (R189, R205). -/
def State.writeParam (s : State) (node : Byte) (number : Word) (id : ParamId) (v : Int) : State :=
  match s.writeResult id v with
  | .ok => (s.storeParam id v).reply node number .ok (s.params.fit id v)
  | .clamped => (s.storeParam id v).reply node number .clamped (s.params.fit id v)
  | res => s.reply node number res (s.params.read id)

/-- The write of one parameter by a PARAM WRITE message from `node` (R188, R205). -/
def paramMessage (node : Byte) (id : ParamId) (value : BitVec 32) (s : State) : State :=
  fromNode node (fun s => s.reply node id.word .unknownRequester 0)
    (fun _ s => s.writeParam node id.word id value.toInt) s

/-! ### Rows that are writes of one parameter -/

/-- LINK_ENABLE (R4). -/
def execLinkEnable (node : Byte) (c : CamId) (value : BitVec 32) (s : State) : Host.Outcome State Fault Refusal :=
  event (onReceipt (paramMessage node (.cam c .linkEnable) value)) s

/-- TAP_OVERRIDE (R15); the reference offers `offered` at the write. -/
def execTapOverride (node : Byte) (c : CamId) (value : BitVec 32) (offered : Tap) (s : State) :
    Host.Outcome State Fault Refusal :=
  event (onReceipt (fun s => paramMessage node (.cam c .tapOverride) value (s.setOffered c offered))) s

/-- TAP_GATE (R15); the reference offers `offered` at the write. -/
def execTapGate (node : Byte) (c : CamId) (value : BitVec 32) (offered : Tap) (s : State) :
    Host.Outcome State Fault Refusal :=
  event (onReceipt (fun s => paramMessage node (.cam c .tapGate) value (s.setOffered c offered))) s

/-- HOLD_LIMIT (R78). -/
def execHoldLimit (node : Byte) (c : CamId) (value : BitVec 32) (s : State) : Host.Outcome State Fault Refusal :=
  event (onReceipt (paramMessage node (.cam c .holdLimit) value)) s

/-- PHASE_SOURCE (R124). -/
def execPhaseSource (node : Byte) (c : CamId) (value : BitVec 32) (s : State) : Host.Outcome State Fault Refusal :=
  event (onReceipt (paramMessage node (.cam c .phaseSource) value)) s

/-- ENABLE (R33). -/
def execEnable (node : Byte) (e : ChanId) (value : BitVec 32) (s : State) : Host.Outcome State Fault Refusal :=
  event (onReceipt (paramMessage node (.chan e .enable) value)) s

/-- MODE (R44). -/
def execMode (node : Byte) (e : ChanId) (value : BitVec 32) (s : State) : Host.Outcome State Fault Refusal :=
  event (onReceipt (paramMessage node (.chan e .mode) value)) s

/-- CPR (R44). -/
def execCpr (node : Byte) (e : ChanId) (value : BitVec 32) (s : State) : Host.Outcome State Fault Refusal :=
  event (onReceipt (paramMessage node (.chan e .cpr) value)) s

/-- MAX_PERIOD (R37). -/
def execMaxPeriod (node : Byte) (e : ChanId) (value : BitVec 32) (s : State) : Host.Outcome State Fault Refusal :=
  event (onReceipt (paramMessage node (.chan e .maxPeriod) value)) s

/-- OUT_THRESHOLD (R40). -/
def execOutThreshold (node : Byte) (e : ChanId) (value : BitVec 32) (s : State) : Host.Outcome State Fault Refusal :=
  event (onReceipt (paramMessage node (.chan e .outThreshold) value)) s

/-- IN_THRESHOLD (R40). -/
def execInThreshold (node : Byte) (e : ChanId) (value : BitVec 32) (s : State) : Host.Outcome State Fault Refusal :=
  event (onReceipt (paramMessage node (.chan e .inThreshold) value)) s

/-- DWELL (R161). -/
def execDwell (node : Byte) (value : BitVec 32) (s : State) : Host.Outcome State Fault Refusal :=
  event (onReceipt (paramMessage node .dwell value)) s

/-- KEEPALIVE, the parameter (R167). -/
def execKeepaliveParamWrite (node : Byte) (value : BitVec 32) (s : State) : Host.Outcome State Fault Refusal :=
  event (onReceipt (paramMessage node .keepalive value)) s

/-- AUGER_PRIORITY (R170). -/
def execAugerPriority (node : Byte) (value : BitVec 32) (s : State) : Host.Outcome State Fault Refusal :=
  event (onReceipt (paramMessage node .augerPriority value)) s

/-- AUGER_CAMERA (R170). -/
def execAugerCamera (node : Byte) (value : BitVec 32) (s : State) : Host.Outcome State Fault Refusal :=
  event (onReceipt (paramMessage node .augerCamera value)) s

/-- AUGER_OUTPUT (R170). -/
def execAugerOutput (node : Byte) (value : BitVec 32) (s : State) : Host.Outcome State Fault Refusal :=
  event (onReceipt (paramMessage node .augerOutput value)) s

/-- Slot node code (R153). -/
def execSlotNodeCode (node : Byte) (k : ReqSlot) (value : BitVec 32) (s : State) : Host.Outcome State Fault Refusal :=
  event (onReceipt (paramMessage node (.nodeCode k) value)) s

/-- Slot max priority (R153). -/
def execSlotMaxPriority (node : Byte) (k : ReqSlot) (value : BitVec 32) (s : State) :
    Host.Outcome State Fault Refusal :=
  event (onReceipt (paramMessage node (.maxPriority k) value)) s

end Sys2Proof.Machine
end

