-- ==== Sys2Proof/Machine/Status.lean ====
section
/-! DEFINITION. Reading by number (11): the device and status items of R203 and R209, PARAM READ, and PARAM WRITE of any
number. Items stand in lists in number order from the base of their area. -/

namespace Sys2Proof.Machine

/-! ### How items read (R203, R208, "Status parameters") -/

/-- A 32-bit quantity, carried bit for bit. -/
def timeItem (t : Time) : Int := t.toInt

/-- A natural quantity, or −1 when it is absent. -/
def natItem? (n : Option Nat) : Int :=
  match n with
  | none => -1
  | some n => n

/-- A timestamp, or −1 when it is absent. -/
def timeItem? (t : Option Time) : Int :=
  match t with
  | none => -1
  | some t => timeItem t

def presenceItem {α : Type} (a : Option α) : Int := boolCode a.isSome

/-- Layout, camera A and camera B of a view; in FULL there is no camera B (log entry 10). -/
def viewItems (v : View) : List Int := [v.layout.code, v.camA.num, natItem? (v.camB?.map CamId.num)]

/-- A slot's number, or −1. -/
def slotItem? (k : Option SlotId) : Int := natItem? (k.map SlotId.num)

/-- A requester's number, or −1. -/
def requesterItem? (r : Option Requester) : Int := natItem? (r.map Requester.num)

/-! ### Device group (R203) -/

/-- The bit rate in kbit/s that the rate strap selects (R186). -/
def Interface.bitRate (mi : Interface) : Nat := if mi.rateHigh then 500 else 250

/-- 0x0000 to 0x0003. -/
def State.deviceItems (s : State) : List Int := [boolCode s.setup, s.mi.idStrap.toNat, s.mi.bitRate, s.mi.base]

/-! ### 0x0800: the part and the message interface -/

/-- One of the eight queue entries, oldest first; an empty place reads −1: DEDUCED (log entry 10). -/
def Interface.queueItem (mi : Interface) (i : Nat) : Int := natItem? ((mi.queue[i]?).map Message.statusCode)

def State.partItems (s : State) : List Int :=
  let mi := s.mi
  [4210, 1, timeItem s.timebase, mi.busState.code, mi.txErrors, mi.rxErrors, mi.dropCount, mi.busOffCount,
    boolCode mi.dropPending, mi.queue.length] ++ (List.range 8).map mi.queueItem

/-! ### 0x0900: cameras -/

/-- An axis of the last job result: code 0 NONE before the first completed job (log entry 10). -/
def lastResultItem (r : Option (XY AxisResult)) (ax : Axis) : Int :=
  match r with
  | none => 0
  | some r => (r.get ax).code

def linkItems (l : Link) : List Int :=
  [l.state.code, l.attempts, l.tap.toNat, l.lastFrameCounter.toNat, l.lossCount, l.failureCount, l.malformedRunCount]

def ringItems (r : Ring) : List Int :=
  [(r.seqCounter : Int), r.received, r.malformed, r.rejected, r.forced, r.overruns, r.superseded, r.aborted] ++
    SlotId.all.map (fun k => ((r.slots.get k).state.code : Int)) ++
    SlotId.all.map (fun k => ((r.slots.get k).pins : Int))

def screenItems (sc : Screen) : List Int := [sc.clearRef, sc.rejectedRun, sc.lastQ, sc.lastVerdict.code]

def contextItems (x : Context) : List Int :=
  [presenceItem x.reference, x.refOff.x, x.refOff.y, x.drift.x, x.drift.y, x.lastS.x, x.lastS.y, x.validRun,
    x.invalidRun, boolCode x.refreshPending, boolCode x.refLost, lastResultItem x.lastResult .x,
    lastResultItem x.lastResult .y, x.jobs, x.edges, x.poors, x.refreshes]

def tableItems (t : PhaseTable) : List Int :=
  [natItem? (t.lastPhase.map (·.phase)), natItem? (t.lastPhase.map (·.b0)), natItem? (t.lastPhase.map (·.b1)),
    natItem? (t.lastPhase.map (·.bn)), t.learnCount, t.outlierCount, t.clearCount]

/-- d of an axis of a record, −65,536 when there is none. -/
def Record.dItem (r : Record) (ax : Axis) : Int := (r.meas.bind (fun m => (m.get ax).d)).getD (-65536)

/-- The newest READY frame's concealed-line count, phase, d x and d y. -/
def newestItems (r : Option Record) : List Int :=
  match r with
  | none => [-1, -1, -65536, -65536]
  | some r => [natItem? r.concealed, natItem? r.phase, r.dItem .x, r.dItem .y]

/-- The newest READY frame's sequence number, −65,536 when there is none. -/
def newestSeqItem (r : Option Record) : Int :=
  match r with
  | none => -65536
  | some r => r.seq

def State.cameraItems (s : State) (c : CamId) : List Int :=
  linkItems (s.link c) ++ ringItems (s.ring c) ++ [newestSeqItem (s.newestRecord? c)] ++ screenItems (s.screen c) ++
    contextItems (s.context c) ++ tableItems (s.table c) ++ newestItems (s.newestRecord? c)

/-! ### 0x0A00: encoder channels -/

def channelItems (ch : Channel) : List Int :=
  [ch.state.code, ch.position, ch.lastDir.code, boolCode ch.dirChange, boolCode ch.armed, (ch.period.getD 0 : Nat),
    presenceItem ch.lastIndex, timeItem? ch.lastIndex, ch.captureCount, timeItem ch.captureTime,
    boolCode ch.captureHeld, ch.auger.code, ch.slipCount, ch.quadErrorCount, ch.glitchCount, ch.saturationCount,
    ch.stopCount]

/-! ### 0x0B00: phase tables -/

/-- Item `i` of a phase table: Tx, Ty, Cx, Cy of bin i / 4. -/
def binItem (t : PhaseTable) (i : Nat) : Option Int :=
  if i < 128 then
    let b := t.bin (i / 4)
    [b.value.x, b.value.y, (b.conf.x : Int), (b.conf.y : Int)][i % 4]?
  else none

/-! ### 0x0D00: the engine, the copier, requester slots -/

/-- Camera, slot, Ox and Oy of a source window, or −1 in each (log entry 10). -/
def sourceItems (w : Option WinSource) : List Int :=
  match w with
  | none => [-1, -1, -1, -1]
  | some w => [w.cam.num, slotItem? w.slot, w.ox, w.oy]

def Sources.layout : Sources → Layout
  | .full _ => .full
  | .split _ _ => .split

def Sources.first : Sources → WinSource
  | .full w => w
  | .split w _ => w

def Sources.second? : Sources → Option WinSource
  | .full _ => none
  | .split _ w => some w

/-- The layout code of some sources, or −1. -/
def layoutItem (src : Option Sources) : Int := natItem? (src.map (fun src => src.layout.code))

/-- Camera and slot of a queued job, or −1 in each. -/
def jobItems (j : Option Job) : List Int :=
  [natItem? (j.map (fun j => j.cam.num)), natItem? (j.map (fun j => j.slot.num))]

/-- Output and requester of a copy record, or −1 in each. -/
def copyItems (r : Option CopyRecord) : List Int :=
  [natItem? (r.map (fun r => r.output.num)), natItem? (r.map (fun r => r.requester.num))]

def engineItems (e : Engine) : List Int :=
  [presenceItem e.running] ++ jobItems (e.running.map (·.job)) ++ [(e.queue.length : Int)] ++
    (List.range 4).flatMap (fun i => jobItems e.queue[i]?)

def copierItems (u : StillUnit) : List Int :=
  let src := u.running.map (·.2)
  [presenceItem u.running] ++ copyItems (u.running.map (·.1)) ++ [layoutItem src] ++
    sourceItems (src.map Sources.first) ++ sourceItems (src.bind Sources.second?) ++ [(u.waiting.length : Int)] ++
    copyItems u.waiting.head?

/-- Last-heard presence, last-heard time and expiry count of a requester slot. -/
def requesterItems (a : Arbiter) (k : ReqSlot) : List Int :=
  [presenceItem (a.lastHeard.get k), timeItem? (a.lastHeard.get k), a.expiryCount.get k]

/-! ### 0x0E00: request entries -/

/-- A request entry: 0 in every item when it is not present. -/
def entryItems (e : Option Entry) : List Int :=
  match e with
  | none => [0, 0, 0, 0, 0, 0, 0]
  | some e => [1] ++ viewItems e.view ++ [(e.priority : Int), e.hold, timeItem e.receipt]

/-! ### 0x0F00: outputs -/

/-- A window: camera, slot, Ox, Oy, border; −1 in each when the layout has no such window (log entry 10). -/
def windowItems (w : Option Window) : List Int :=
  match w with
  | none => [-1, -1, -1, -1, -1]
  | some w => [w.cam.num, slotItem? w.slot, w.ox, w.oy, w.border.code]

/-- The second window, in SPLIT. -/
def Compositor.second? (oc : Compositor) : Option Window :=
  match oc.shown with
  | .full _ => none
  | .split _ _ => some oc.win2

/-- The grant: 0 DEFAULT, whose view items are absent, or 1 and the granted view. -/
def grantItems (g : Option View) : List Int :=
  match g with
  | none => [0, -1, -1, -1]
  | some v => 1 :: viewItems v

def compositorItems (oc : Compositor) : List Int :=
  grantItems oc.grant ++ viewItems oc.shown ++ [boolCode oc.frozen, (oc.mode.code : Int)] ++
    windowItems (some oc.win1) ++ windowItems oc.second? ++ [timeItem oc.frameStart]

def grantStateItems (g : OutGrant) : List Int :=
  [requesterItem? g.holder, timeItem g.grantTime, boolCode g.dwellRunning, requesterItem? g.candidate, g.grantCount]

def stillItems (st : Still) : List Int :=
  let src := st.desc.map (·.sources)
  [boolCode st.valid, st.completed, st.cancelled, st.aborted, layoutItem src] ++
    sourceItems (src.map Sources.first) ++ [natItem? (st.desc.bind (·.seq1))] ++
    sourceItems (src.bind Sources.second?) ++ [natItem? (st.desc.bind (·.seq2))] ++
    [timeItem? (st.desc.bind (·.completed))]

def State.outputItems (s : State) (o : OutId) : List Int :=
  compositorItems (s.output o) ++ grantStateItems (s.outGrant o) ++ stillItems (s.still o)

/-! ### Reading a number (R203, R208, R209) -/

/-- The requester of a number 0–6. -/
def Requester.ofNat? (n : Nat) : Option Requester := Requester.all[n]?

/-- The read-only item a number names: device group or status area. -/
def State.readOnlyItem (s : State) (n : Nat) : Option Int :=
  if n < 0x10 then s.deviceItems[n]?
  else if n < 0x800 then none
  else if n < 0x900 then s.partItems[n - 0x800]?
  else if n < 0xA00 then
    (CamId.ofNat? ((n - 0x900) / 0x40)).bind (fun c => (s.cameraItems c)[(n - 0x900) % 0x40]?)
  else if n < 0xB00 then
    (ChanId.ofNat? ((n - 0xA00) / 0x20)).bind (fun e => (channelItems (s.channel e))[(n - 0xA00) % 0x20]?)
  else if n < 0xD00 then
    (CamId.ofNat? ((n - 0xB00) / 0x80)).bind (fun c => binItem (s.table c) ((n - 0xB00) % 0x80))
  else if n < 0xD40 then (engineItems s.engine ++ copierItems s.stillUnit)[n - 0xD00]?
  else if n < 0xE00 then
    (ReqSlot.all[(n - 0xD40) / 3]?).bind (fun k => (requesterItems s.arbiter k)[(n - 0xD40) % 3]?)
  else if n < 0xF00 then
    (Requester.ofNat? ((n - 0xE00) / 0x20)).bind (fun r =>
      (OutId.ofNat? ((n - 0xE00) / 0x10 % 2)).bind (fun o => (entryItems (s.entry? o r))[(n - 0xE00) % 0x10]?))
  else if n < 0xF80 then
    (OutId.ofNat? ((n - 0xF00) / 0x40)).bind (fun o => (s.outputItems o)[(n - 0xF00) % 0x40]?)
  else none

/-- What a number names: a writable parameter, a read-only item with its value, or nothing. -/
inductive Named | writable (id : ParamId) | readOnly (value : Int) | unknown
deriving DecidableEq, Repr

def State.named (s : State) (number : Word) : Named :=
  match paramOf number.toNat with
  | some id => .writable id
  | none =>
    match s.readOnlyItem number.toNat with
    | some v => .readOnly v
    | none => .unknown

/-! ### PARAM READ and PARAM WRITE of any number (R188, R189, R205, R208) -/

/-- A PARAM READ message. -/
def paramReadMessage (node : Byte) (number : Word) (s : State) : State :=
  fromNode node (fun s => s.reply node number .unknownRequester 0) (fun _ s =>
    match s.named number with
    | .writable id => s.reply node number .ok (s.params.read id)
    | .readOnly v => s.reply node number .ok v
    | .unknown => s.reply node number .badParam 0) s

/-- PARAM_READ (R208). -/
def execParamRead (node : Byte) (number : Word) (s : State) : Host.Outcome State Fault Refusal :=
  event (onReceipt (paramReadMessage node number)) s

/-- A PARAM WRITE message of any number. -/
def paramWriteMessage (node : Byte) (number : Word) (value : BitVec 32) (s : State) : State :=
  fromNode node (fun s => s.reply node number .unknownRequester 0) (fun _ s =>
    match s.named number with
    | .writable id => s.writeParam node number id value.toInt
    | .readOnly v => s.reply node number .readOnly v
    | .unknown => s.reply node number .badParam 0) s

/-- PARAM_WRITE (R205). -/
def execParamWrite (node : Byte) (number : Word) (value : BitVec 32) (s : State) : Host.Outcome State Fault Refusal :=
  event (onReceipt (paramWriteMessage node number value)) s

end Sys2Proof.Machine
end

