-- ==== Sys2Proof/Machine/Resets.lean ====
section
/-! DEFINITION. Power-on, the RESET line, the SETUP line (11) and the soft reset, block by block. -/

namespace Sys2Proof.Machine

/-! ### Power-on and the RESET line (R204, R211) -/

/-- The part started with the levels it finds on its pins; the commands that wait outside it stay. -/
def State.powerUp (s : State) (l : BootLevels) : State := { State.start l with pending := s.pending }

/-- POWER_ON (R211). -/
def execPowerOn (l : BootLevels) (s : State) : Host.Outcome State Fault Refusal := .next (s.powerUp l)

/-- RESET_LINE: the line returns inactive (R211). -/
def execResetLine (l : BootLevels) (s : State) : Host.Outcome State Fault Refusal := .next (s.powerUp l)

/-- The pin levels as the part knows them. -/
def State.pinLevels (s : State) : BootLevels where
  rateHigh := s.mi.rateHigh
  idStrap := s.mi.idStrap
  setup := s.setup
  encoders := s.channels.map (·.levels)

/-- RESET_LINE_ACTIVE: all in-flight work is discarded and the part is held until it is started (R211). -/
def execResetLineActive (s : State) : Host.Outcome State Fault Refusal :=
  .next { s.powerUp s.pinLevels with held := true }

/-- SETUP_LINE_CHANGE (R204): the level alone changes. -/
def execSetupLineChange (level : Bool) (s : State) : Host.Outcome State Fault Refusal :=
  .next { s with setup := level }

/-! ### The blocks' parts of a soft reset -/

/-- A link's part but for its link-down (R12). -/
def Link.softReset (l : Link) (enabled : Bool) (now : Time) : Link :=
  let l := { l with consecMalformed := 0, attempts := 0 }
  if enabled then l.acquire 0 now else l.shutDown

/-- The part of camera `c`'s link (R12). -/
def State.softResetLink (s : State) (c : CamId) : State :=
  let s := if (s.link c).state = .locked then s.linkDown c else s
  s.setLink c ((s.link c).softReset (s.camParams c).linkEnable s.timebase)

/-- A slot after a soft reset (R67). Its profiles and pixels stay: DESIGN CHOICE (log entry 36). -/
def Slot.softReset (k : Slot) : Slot := { k.freed with pins := 0 }

/-- A ring's part: a camera that still has a FILLING slot counts an aborted frame (R67). -/
def Ring.softReset (r : Ring) : Ring :=
  { r with
    slots := r.slots.map Slot.softReset
    order := []
    aborted := if r.filling?.isSome then bump r.aborted else r.aborted }

/-- A motion context's part: the engine counts are kept (R106). -/
def Context.softReset (x : Context) : Context :=
  { Context.initial with jobs := x.jobs, edges := x.edges, poors := x.poors, refreshes := x.refreshes }

/-- A window's part: its pin is released (R149). -/
def Window.unpinned (w : Window) : Window := { w with slot := none }

/-- A compositor's part (R149). -/
def Compositor.softReset (oc : Compositor) : Compositor :=
  { oc with
    grant := none, frozen := false, mode := .liveView, blanked := true
    win1 := oc.win1.unpinned, win2 := oc.win2.unpinned }

/-- A still's part: it becomes invalid (R67, R185). That its pixels then read black is the model's choice: DESIGN CHOICE (log
entry 13). -/
def Still.softReset (st : Still) : Still := { st with valid := false, pixels := [] }

/-- The still unit's part (R185). -/
def StillUnit.softReset (u : StillUnit) : StillUnit :=
  { stills := u.stills.map Still.softReset, running := none, waiting := [] }

/-- An output's part at the arbiter (R172). -/
def OutGrant.softReset (g : OutGrant) : OutGrant :=
  { g with holder := none, dwellRunning := false, candidate := none }

/-- The arbiter's part but for the auger entry (R172). -/
def Arbiter.softReset (a : Arbiter) : Arbiter :=
  { a with lastHeard := .same none, table := ⟨.vacant, .vacant⟩, outs := a.outs.map OutGrant.softReset }

/-- The auger entry created anew when channel 2 is OUT and AUGER_PRIORITY above 0. Its grant is applied at the next output frame
start, as R172 says; R149 shows the default view at that one and the grant at a later one. DEDUCED (log entry 35). -/
def State.recreateAuger (s : State) : State :=
  if (s.channel .ec2).auger = .outside ∧ 0 < s.params.augerPriority then s.augerCreate else s

/-- The transmit buffer after a soft reset: a frame under way completes and is not offered again (R191). -/
def withdrawn (tx : Option TxFrame) (underWay : Bool) : Option TxFrame :=
  if underWay then tx.map (fun f => { f with lastTry := true }) else none

/-- The message interface's part but for its answer (R191). -/
def Interface.softReset (mi : Interface) (underWay : Bool) (now : Time) : Interface :=
  { mi with
    queue := [], dropPending := false, txBuffer := withdrawn mi.txBuffer underWay
    viewTimer := now, camTimer := now, encTimer := now, camTurn := .cam0, chanTurn := .ec0 }

/-! ### The whole of it (R191) -/

/-- Every block's part but the message interface's, in a fixed order (log entry 11). -/
def State.softResetBlocks (s : State) : State :=
  let s := CamId.all.foldl State.softResetLink s
  State.recreateAuger
    { s with
      rings := s.rings.map Ring.softReset
      screens := .same .initial
      contexts := s.contexts.map Context.softReset
      engine := ⟨none, []⟩
      outputs := s.outputs.map Compositor.softReset
      stillUnit := s.stillUnit.softReset
      arbiter := s.arbiter.softReset }

/-- A soft reset asked for by `node`. The interface's own part comes first, so that the VIEW STATUS of an auger entry made
anew merges with the one in the queue, and none is dropped and counted (R191, R202): DESIGN CHOICE (log entry 11). -/
def State.softReset (s : State) (node : Byte) (underWay : Bool) : State :=
  let s := s.setMi (s.mi.softReset underWay s.timebase)
  (((s.answer node 15 .command .ok).ask (.viewStatus .a)).ask (.viewStatus .b)).softResetBlocks

end Sys2Proof.Machine
end

