-- ==== Sys2Proof/Machine/Commands.lean ====
section
/-! DEFINITION. COMMAND messages (R190, R191): the camera, encoder and device commands, and the meanings of the rows that
are commands. -/

namespace Sys2Proof.Machine

/-! ### The work of each command bit -/

/-- The link's part of camera CLEAR-COUNTS (R22). -/
def Link.clearCounts (l : Link) : Link := { l with lossCount := 0, failureCount := 0, malformedRunCount := 0 }

/-- The frame store's part (R65). -/
def Ring.clearCounts (r : Ring) : Ring :=
  { r with
    received := 0, malformed := 0, rejected := 0, forced := 0, overruns := 0, superseded := 0, aborted := 0 }

/-- The engine's part (R104). -/
def Context.clearCounts (x : Context) : Context := { x with jobs := 0, edges := 0, poors := 0, refreshes := 0 }

/-- The phase table's part (R126). -/
def PhaseTable.clearCounts (t : PhaseTable) : PhaseTable :=
  { t with learnCount := 0, outlierCount := 0, clearCount := 0 }

/-- Camera CLEAR-COUNTS. -/
def State.clearCameraCounts (s : State) (c : CamId) : State :=
  (((s.setLink c (s.link c).clearCounts).setRing c (s.ring c).clearCounts).setContext c
    (s.context c).clearCounts).setTable c (s.table c).clearCounts

/-- A command bit's work, when it is set. -/
def whenBit (bits : Word) (i : Nat) (f : State → State) (s : State) : State := if bits.getLsbD i then f s else s

/-- The set bits of a camera target, in the order of increasing bit number (R190). -/
def cameraCommands (c : CamId) (bits : Word) (s : State) : State :=
  let s := whenBit bits 0 (fun s => s.linkReset c) s
  let s := whenBit bits 1 (fun s => s.refRefresh c) s
  let s := whenBit bits 2 (fun s => s.clearTable c) s
  let s := whenBit bits 3 (fun s => s.forceTapUpdate c) s
  whenBit bits 4 (fun s => s.clearCameraCounts c) s

/-- The set bits of an encoder target, in the order of increasing bit number (R190). -/
def encoderCommands (e : ChanId) (bits : Word) (s : State) : State :=
  let s := whenBit bits 0 (fun s => s.clearPosition e) s
  let s := whenBit bits 1 (fun s => s.armIndex e) s
  let s := whenBit bits 2 (fun s => s.releaseCapture e) s
  whenBit bits 3 (fun s => s.clearChannelCounts e) s

/-! ### Targets (R190) -/

inductive Target | camera (c : CamId) | encoder (e : ChanId) | device
deriving DecidableEq, Repr

/-- The target a byte names: 0–3 cameras, 8–10 encoder channels, 15 the device. -/
def targetOf (b : Byte) : Option Target :=
  if b = 15 then some .device
  else match CamId.ofNat? b.toNat with
    | some c => some (.camera c)
    | none => if 8 ≤ b.toNat then (ChanId.ofNat? (b.toNat - 8)).map .encoder else none

/-- The byte of a target. -/
def Target.byte : Target → Byte
  | .camera c => byteOf c.num 0
  | .encoder e => byteOf (8 + e.num) 0
  | .device => 15

/-- What a COMMAND to a target does, its answer included (R190, R191). -/
def obey (node : Byte) (t : Target) (bits : Word) (underWay : Bool) (s : State) : State :=
  match t with
  | .camera c => (cameraCommands c bits s).answer node t.byte .command .ok
  | .encoder e => (encoderCommands e bits s).answer node t.byte .command .ok
  | .device => if bits.getLsbD 0 then s.softReset node underWay else s.answer node t.byte .command .ok

/-- A COMMAND message; `underWay` says that the frame in the transmit buffer is on the bus (R191). -/
def commandMessage (node target : Byte) (bits : Word) (underWay : Bool) (s : State) : State :=
  fromNode node (fun s => s.answer node target .command .unknownRequester) (fun _ s =>
    match targetOf target with
    | none => s.answer node target .command .badField
    | some t => obey node t bits underWay s) s

/-- A COMMAND to a target with bit `i` of its bits set. -/
def bitCommand (node : Byte) (t : Target) (bits : Word) (i : Nat) (underWay : Bool) (s : State) : State :=
  commandMessage node t.byte (bits ||| BitVec.twoPow 16 i) underWay s

/-! ### Rows -/

/-- LINK_RESET (R11). -/
def execLinkReset (node : Byte) (c : CamId) (bits : Word) (s : State) : Host.Outcome State Fault Refusal :=
  event (onReceipt (bitCommand node (.camera c) bits 0 false)) s

/-- REF_REFRESH (R101). -/
def execRefRefresh (node : Byte) (c : CamId) (bits : Word) (s : State) : Host.Outcome State Fault Refusal :=
  event (onReceipt (bitCommand node (.camera c) bits 1 false)) s

/-- TABLE_CLEAR (R123). -/
def execTableClear (node : Byte) (c : CamId) (bits : Word) (s : State) : Host.Outcome State Fault Refusal :=
  event (onReceipt (bitCommand node (.camera c) bits 2 false)) s

/-- FORCE_TAP_UPDATE (R15); the reference offers `offered` at the command. -/
def execForceTapUpdate (node : Byte) (c : CamId) (bits : Word) (offered : Tap) (s : State) :
    Host.Outcome State Fault Refusal :=
  event (onReceipt (fun s => bitCommand node (.camera c) bits 3 false (s.setOffered c offered))) s

/-- CLEAR_COUNTS (R22, R65, R104, R126). -/
def execClearCounts (node : Byte) (c : CamId) (bits : Word) (s : State) : Host.Outcome State Fault Refusal :=
  event (onReceipt (bitCommand node (.camera c) bits 4 false)) s

/-- CLEAR_POSITION (R41). -/
def execClearPosition (node : Byte) (e : ChanId) (bits : Word) (s : State) : Host.Outcome State Fault Refusal :=
  event (onReceipt (bitCommand node (.encoder e) bits 0 false)) s

/-- ARM_INDEX (R42). -/
def execArmIndex (node : Byte) (e : ChanId) (bits : Word) (s : State) : Host.Outcome State Fault Refusal :=
  event (onReceipt (bitCommand node (.encoder e) bits 1 false)) s

/-- RELEASE_CAPTURE (R42). -/
def execReleaseCapture (node : Byte) (e : ChanId) (bits : Word) (s : State) : Host.Outcome State Fault Refusal :=
  event (onReceipt (bitCommand node (.encoder e) bits 2 false)) s

/-- CLEAR_COUNTS_ENCODER (R43). -/
def execClearCountsEncoder (node : Byte) (e : ChanId) (bits : Word) (s : State) : Host.Outcome State Fault Refusal :=
  event (onReceipt (bitCommand node (.encoder e) bits 3 false)) s

/-- SOFT_RESET (R191). It acts in BUS_OFF too, where it leaves the controller BUS_OFF (R201): the message then counts as
received before the controller went off the bus, and no frame is received now (log entry 32). -/
def execSoftReset (node : Byte) (bits : Word) (underWay : Bool) (s : State) : Host.Outcome State Fault Refusal :=
  event (fun s =>
    if s.mi.busState = .busOff then bitCommand node .device bits 0 underWay s
    else onReceipt (bitCommand node .device bits 0 underWay) s) s

/-- COMMAND (R190): any target and bits. A SOFT-RESET carried by this row finds the buffered frame not begun (log
entry 12). -/
def execCommand (node target : Byte) (bits : Word) (s : State) : Host.Outcome State Fault Refusal :=
  event (onReceipt (commandMessage node target bits false)) s

end Sys2Proof.Machine
end

