-- ==== Sys2Proof/Machine/Messages.lean ====
section
/-! DEFINITION. The inbound frames (R186, R187): which frames are messages, how their bytes are read, and the meaning of
CAN_FRAME_IGNORED. -/

namespace Sys2Proof.Machine

/-- The inbound kinds, in the order of their identifier offsets (R186). -/
inductive InKind | viewRequest | viewRelease | freeze | paramWrite | paramRead | command | keepalive
deriving DecidableEq, Repr

def InKind.all : List InKind :=
  [.viewRequest, .viewRelease, .freeze, .paramWrite, .paramRead, .command, .keepalive]

/-- The data length of a kind ("Message layouts"). -/
def InKind.length : InKind → Nat
  | .viewRequest => 8 | .viewRelease => 2 | .freeze => 3 | .paramWrite => 8 | .paramRead => 3 | .command => 4
  | .keepalive => 1

/-- Byte `i` of a frame's data. -/
def frameByte (f : CanFrame) (i : Nat) : Byte := f.data.getD i 0

/-- Bytes `i` and `i + 1`, little-endian. -/
def frameWord (f : CanFrame) (i : Nat) : Word := frameByte f (i + 1) ++ frameByte f i

/-- Bytes `i` to `i + 3`, little-endian. -/
def frameLong (f : CanFrame) (i : Nat) : BitVec 32 := frameWord f (i + 2) ++ frameWord f i

/-- The kind of inbound message a frame is, if the interface takes it (R187). -/
def inboundKind (base : Nat) (f : CanFrame) : Option InKind :=
  if f.extended || f.remote || decide (f.ident < base) then none
  else match InKind.all[f.ident - base]? with
    | none => none
    | some k => if k.length ≤ f.data.length then some k else none

/-- An inbound message of a kind, handed over with its bytes ("Message layouts"). -/
def deliver (k : InKind) (f : CanFrame) (s : State) : State :=
  match k with
  | .viewRequest =>
    viewRequestMessage (frameByte f 0) (frameByte f 1) (frameByte f 2) (frameByte f 3) (frameByte f 4) (frameByte f 5)
      (frameWord f 6) s
  | .viewRelease => viewReleaseMessage (frameByte f 0) (frameByte f 1) s
  | .freeze => freezeMessage (frameByte f 0) (frameByte f 1) (frameByte f 2) s
  | .paramWrite => paramWriteMessage (frameByte f 0) (frameWord f 1) (frameLong f 4) s
  | .paramRead => paramReadMessage (frameByte f 0) (frameWord f 1) s
  | .command => commandMessage (frameByte f 0) (frameByte f 1) (frameWord f 2) false s
  | .keepalive => keepaliveMessage (frameByte f 0) s

/-- A frame received without error: a message is delivered, every other frame reaches no block (R187). -/
def takeFrame (f : CanFrame) (s : State) : State :=
  match inboundKind s.mi.base f with
  | none => s
  | some k => deliver k f s

/-- CAN_FRAME_IGNORED (R187, R200): a frame of any content; a frame that is an inbound message after all is taken as
one. -/
def execCanFrameIgnored (f : CanFrame) (s : State) : Host.Outcome State Fault Refusal := event (onReceipt (takeFrame f)) s

end Sys2Proof.Machine
end

