-- ==== Sys2Proof/Machine/Raster.lean ====
section
/-! DEFINITION. What the video ports send (07): the pixel of an output's raster frame in progress, a function of the state
that its latest output frame start set up. -/

namespace Sys2Proof.Machine

/-- Y, Cb and Cr of a border state's colour (R138). -/
def Border.colour : Border → Byte × Byte × Byte
  | .frozen => (41, 240, 110)
  | .noSignal => (81, 90, 240)
  | .stale => (81, 90, 240)
  | .held => (150, 44, 180)
  | .forced => (210, 16, 146)
  | .live => (64, 128, 128)

/-- A border pixel: an even column carries Cb, an odd one Cr (R130). -/
def Border.pixel (b : Border) (x : Nat) : Word := b.colour.1 ++ (if x % 2 = 0 then b.colour.2.1 else b.colour.2.2)

/-- Whether a raster position lies in the view area (R130). -/
def inViewArea (x y : Nat) : Bool := decide (48 ≤ x) && decide (x ≤ 751) && decide (32 ≤ y) && decide (y ≤ 447)

/-- The border state of the half of the border that column `x` belongs to (R142). -/
def Compositor.borderAt (oc : Compositor) (x : Nat) : Border := if x ≤ 399 then oc.win1.border else oc.borderB

/-- The camera pixel a window draws at column `u`, line `v` of its camera's crop, black without a slot (R131). -/
def State.windowPixel (s : State) (w : Window) (u v : Nat) : Word :=
  match w.slot with
  | none => Config.black
  | some k => RowStore.pixel (s.slot w.cam k).pixels Config.frameWidth (w.ox + u) (w.oy + v)

/-- The live view-area pixel of a raster position (R131). -/
def State.livePixel (s : State) (o : OutId) (x y : Nat) : Word :=
  let oc := s.output o
  match oc.shown with
  | .full _ => s.windowPixel oc.win1 (x - 48) (y - 32)
  | .split _ _ =>
    if x ≤ 399 then s.windowPixel oc.win1 (176 + (x - 48)) (y - 32)
    else s.windowPixel oc.win2 (176 + (x - 400)) (y - 32)

/-- The view-area pixel of a raster position: black after a soft reset, the still in STILL, else the windows (R131, R143,
R149). -/
def State.viewPixel (s : State) (o : OutId) (x y : Nat) : Word :=
  let oc := s.output o
  if oc.blanked then Config.black
  else match oc.mode with
    | .still => RowStore.pixel (s.still o).pixels Config.viewWidth (x - 48) (y - 32)
    | .liveView => s.livePixel o x y

/-- The pixel an output sends at column `x`, line `y` of the raster frame in progress; black while the part is held
(R130, R211). -/
def State.rasterPixel (s : State) (o : OutId) (x y : Nat) : Word :=
  if s.held then Config.black
  else if inViewArea x y then s.viewPixel o x y
  else Border.pixel ((s.output o).borderAt x) x

end Sys2Proof.Machine
end

