-- ==== Sys2Proof/Machine/Dispatch.lean ====
section
/-! DEFINITION. The dispatch: one arm for each command, each one call of that command's meaning. -/

namespace Sys2Proof.Machine

def exec (i : Instr) (s : State) : Host.Outcome State Fault Refusal :=
  match i with
  | .powerOn levels => Sys2Proof.Machine.execPowerOn levels s
  | .resetLine levels => Sys2Proof.Machine.execResetLine levels s
  | .setupLineChange level => Sys2Proof.Machine.execSetupLineChange level s
  | .referenceLock c offered => Sys2Proof.Machine.execReferenceLock c offered s
  | .acquireTimeout c => Sys2Proof.Machine.execAcquireTimeout c s
  | .gateEnd c => Sys2Proof.Machine.execGateEnd c s
  | .referenceUnlock c => Sys2Proof.Machine.execReferenceUnlock c s
  | .backoffEnd c => Sys2Proof.Machine.execBackoffEnd c s
  | .signalLoss c => Sys2Proof.Machine.execSignalLoss c s
  | .frameStart c counter offered => Sys2Proof.Machine.execFrameStart c counter offered s
  | .lineStart c number => Sys2Proof.Machine.execLineStart c number s
  | .pixelWord c word => Sys2Proof.Machine.execPixelWord c word s
  | .lineEnd c check => Sys2Proof.Machine.execLineEnd c check s
  | .frameEnd c offered => Sys2Proof.Machine.execFrameEnd c offered s
  | .jobCompletion => Sys2Proof.Machine.execJobCompletion s
  | .quadratureEdge e a b => Sys2Proof.Machine.execQuadratureEdge e a b s
  | .indexEdge e level => Sys2Proof.Machine.execIndexEdge e level s
  | .stopWatchExpiry e => Sys2Proof.Machine.execStopWatchExpiry e s
  | .outputFrameStart o => Sys2Proof.Machine.execOutputFrameStart o s
  | .viewRequest node output layout camA camB priority hold => Sys2Proof.Machine.execViewRequest node output layout camA camB priority hold s
  | .viewRelease node output => Sys2Proof.Machine.execViewRelease node output s
  | .timedExpiry r o => Sys2Proof.Machine.execTimedExpiry r o s
  | .keepaliveExpiry k => Sys2Proof.Machine.execKeepaliveExpiry k s
  | .dwellExpiry o => Sys2Proof.Machine.execDwellExpiry o s
  | .freeze node output => Sys2Proof.Machine.execFreeze node output s
  | .unfreeze node output action => Sys2Proof.Machine.execUnfreeze node output action s
  | .copyCompletion => Sys2Proof.Machine.execCopyCompletion s
  | .paramWrite node number value => Sys2Proof.Machine.execParamWrite node number value s
  | .paramRead node number => Sys2Proof.Machine.execParamRead node number s
  | .keepalive node => Sys2Proof.Machine.execKeepalive node s
  | .canFrameIgnored frame => Sys2Proof.Machine.execCanFrameIgnored frame s
  | .linkReset node c bits => Sys2Proof.Machine.execLinkReset node c bits s
  | .refRefresh node c bits => Sys2Proof.Machine.execRefRefresh node c bits s
  | .tableClear node c bits => Sys2Proof.Machine.execTableClear node c bits s
  | .forceTapUpdate node c bits offered => Sys2Proof.Machine.execForceTapUpdate node c bits offered s
  | .clearCounts node c bits => Sys2Proof.Machine.execClearCounts node c bits s
  | .clearPosition node e bits => Sys2Proof.Machine.execClearPosition node e bits s
  | .armIndex node e bits => Sys2Proof.Machine.execArmIndex node e bits s
  | .releaseCapture node e bits => Sys2Proof.Machine.execReleaseCapture node e bits s
  | .clearCountsEncoder node e bits => Sys2Proof.Machine.execClearCountsEncoder node e bits s
  | .softReset node bits underWay => Sys2Proof.Machine.execSoftReset node bits underWay s
  | .linkEnable node c value => Sys2Proof.Machine.execLinkEnable node c value s
  | .tapOverride node c value offered => Sys2Proof.Machine.execTapOverride node c value offered s
  | .tapGate node c value offered => Sys2Proof.Machine.execTapGate node c value offered s
  | .holdLimit node c value => Sys2Proof.Machine.execHoldLimit node c value s
  | .phaseSource node c value => Sys2Proof.Machine.execPhaseSource node c value s
  | .enable node e value => Sys2Proof.Machine.execEnable node e value s
  | .mode node e value => Sys2Proof.Machine.execMode node e value s
  | .cpr node e value => Sys2Proof.Machine.execCpr node e value s
  | .maxPeriod node e value => Sys2Proof.Machine.execMaxPeriod node e value s
  | .outThreshold node e value => Sys2Proof.Machine.execOutThreshold node e value s
  | .inThreshold node e value => Sys2Proof.Machine.execInThreshold node e value s
  | .dwell node value => Sys2Proof.Machine.execDwell node value s
  | .keepaliveParamWrite node value => Sys2Proof.Machine.execKeepaliveParamWrite node value s
  | .augerPriority node value => Sys2Proof.Machine.execAugerPriority node value s
  | .augerCamera node value => Sys2Proof.Machine.execAugerCamera node value s
  | .augerOutput node value => Sys2Proof.Machine.execAugerOutput node value s
  | .slotNodeCode node k value => Sys2Proof.Machine.execSlotNodeCode node k value s
  | .slotMaxPriority node k value => Sys2Proof.Machine.execSlotMaxPriority node k value s
  | .viewStatusTimer => Sys2Proof.Machine.execViewStatusTimer s
  | .cameraTimer => Sys2Proof.Machine.execCameraTimer s
  | .encoderTimer => Sys2Proof.Machine.execEncoderTimer s
  | .frameSent => Sys2Proof.Machine.execFrameSent s
  | .transmitError => Sys2Proof.Machine.execTransmitError s
  | .receiveError => Sys2Proof.Machine.execReceiveError s
  | .busJoin => Sys2Proof.Machine.execBusJoin s
  | .busOffRecovery runs => Sys2Proof.Machine.execBusOffRecovery runs s
  | .wordClock c => Sys2Proof.Machine.execWordClock c s
  | .resetLineActive => Sys2Proof.Machine.execResetLineActive s
  | .command node target bits => Sys2Proof.Machine.execCommand node target bits s

end Sys2Proof.Machine
end

