-- ==== Sys2Proof/Safety.lean ====
section
/-! DEFINITION. What the manual says holds at every moment: the properties that every step of the part keeps. -/

namespace Sys2Proof.Machine

/-! ### The outbound queue (R192, R193) -/

/-- At most eight entries, no two of one kind and subject, and no OUTBOUND_DROP entry while one is owed. -/
def Interface.QueueOk (mi : Interface) : Prop :=
  mi.queue.length ≤ 8 ∧ (mi.queue.map Message.key).Nodup ∧
    (mi.dropPending = true → queued (dropNotice 0) mi.queue = false)

/-! ### The parameters (R40, R203, R206) -/

/-- Every value within its parameter's range, NOMINAL_X even, RASTER_RATE 50 or 60, IN_THRESHOLD below OUT_THRESHOLD. -/
def Params.InRange (p : Params) : Prop :=
  (∀ id : ParamId, id.range.1 ≤ p.read id ∧ p.read id ≤ id.range.2) ∧
    (∀ c : CamId, (p.cams.get c).nominalX % 2 = 0) ∧
    (∀ o : OutId, (p.outs.get o).rasterRate = 50 ∨ (p.outs.get o).rasterRate = 60) ∧
    ∀ e : ChanId, (p.chans.get e).inThreshold < (p.chans.get e).outThreshold

/-! ### The quality screen (R76, R78) -/

/-- No camera's rejected-run exceeds its HOLD_LIMIT. -/
def State.ScreensOk (s : State) : Prop := ∀ c : CamId, (s.screen c).rejectedRun ≤ (s.camParams c).holdLimit

/-! ### The phase tables (R108) -/

/-- A bin whose values and confidences lie within their bounds. -/
def Bin.InRange (b : Bin) : Prop :=
  ∀ ax : Axis, -(16 * axisBound ax) ≤ b.value.get ax ∧ b.value.get ax ≤ 16 * axisBound ax ∧ b.conf.get ax ≤ 15

/-- A table of 32 bins within their bounds. -/
def PhaseTable.InRange (t : PhaseTable) : Prop := t.bins.length = Config.bins ∧ ∀ b ∈ t.bins, b.InRange

def State.TablesOk (s : State) : Prop := ∀ c : CamId, (s.table c).InRange

/-! ### The encoder channels (R27, R28, R33–R35, R39) -/

/-- The position lies within the mode's range. -/
def Channel.PositionOk (ch : Channel) (p : ChanParams) : Prop :=
  match p.mode with
  | .modular => 0 ≤ ch.position ∧ ch.position < p.cpr
  | .linear => linearMin ≤ ch.position ∧ ch.position ≤ linearMax

/-- A channel is DISABLED exactly with ENABLE = 0, its period valid exactly in RUNNING, RUNNING, STOPPED and SLIPPED are
states of MODULAR channels alone, an auger state is known only on a HOMED LINEAR channel, and a HOMED or RUNNING channel
has a last index time. -/
def Channel.Ok (ch : Channel) (p : ChanParams) : Prop :=
  ch.PositionOk p ∧ (ch.state = .disabled ↔ p.enable = false) ∧ (ch.period.isSome = true ↔ ch.state = .running) ∧
    (ch.state = .running ∨ ch.state = .stopped ∨ ch.state = .slipped → p.mode = .modular) ∧
    (ch.auger ≠ .unknown → p.mode = .linear ∧ ch.state = .homed) ∧
    (ch.state = .homed ∨ ch.state = .running → ch.lastIndex.isSome = true)

def State.ChannelsOk (s : State) : Prop := ∀ e : ChanId, (s.channel e).Ok (s.chanParams e)

/-! ### The view arbiter (R154, R158, R161) -/

/-- An output has a holder exactly when it has an entry, the holder's entry has the highest priority, and a candidate is
another entry of the holder's priority. -/
def HolderOk (t : Requests) (g : OutGrant) : Prop :=
  match g.holder with
  | none => (∀ r : Requester, t.get r = none) ∧ g.candidate = none
  | some h => ∃ e, t.get h = some e ∧ (∀ r e', t.get r = some e' → e'.priority ≤ e.priority) ∧
      ∀ r, g.candidate = some r → ∃ e', t.get r = some e' ∧ e'.priority = e.priority ∧ r ≠ h

def State.HoldersOk (s : State) : Prop := ∀ o : OutId, HolderOk (s.requests o) (s.outGrant o)

/-- No entry, and no grant, is later in the order of receipt than the latest receipt. -/
def State.OrdersOk (s : State) : Prop :=
  ∀ o : OutId, (∀ r e, s.entry? o r = some e → e.order ≤ s.arbiter.receipts) ∧
    (s.outGrant o).grantOrder ≤ s.arbiter.receipts

/-- The entry of the auger requester for an output: with channel 2 OUT and AUGER_PRIORITY above 0, on AUGER_OUTPUT, an
entry made of the auger parameters; otherwise none (R169, R170). -/
def State.AugerOk (s : State) : Prop :=
  ∀ o : OutId,
    if o = s.params.augerOutput ∧ 0 < s.params.augerPriority ∧ (s.channel .ec2).auger = .outside then
      ∃ e, s.entry? o .auger = some e ∧ e.view = .full s.params.augerCamera ∧ e.priority = s.params.augerPriority ∧
        e.hold = 0
    else s.entry? o .auger = none

/-! ### The frame buffers -/

/-- Every frame buffer and still is in canonical form. -/
def State.RowsOk (s : State) : Prop :=
  (∀ (c : CamId) (k : SlotId), RowStore.wf Config.frameWidth (s.slot c k).pixels = true) ∧
    ∀ o : OutId, RowStore.wf Config.viewWidth (s.still o).pixels = true

/-! ### The freeze (R143, R182) -/

/-- An output is frozen, or draws its still, only while the still is valid; while it draws the still, no window holds a
slot. -/
def State.FreezeOk (s : State) : Prop :=
  ∀ o : OutId,
    ((s.output o).frozen = true ∨ (s.output o).mode = .still → (s.still o).valid = true) ∧
      ((s.output o).mode = .still → (s.output o).win1.slot = none ∧ (s.output o).win2.slot = none)

/-! ### Copies (R175, R176) -/

/-- The copier idles only when no copy waits, no output has two copies, pending or running. -/
def State.CopiesOk (s : State) : Prop :=
  (s.stillUnit.running = none → s.stillUnit.waiting = []) ∧ (s.stillUnit.waiting.map (·.output)).Nodup ∧
    ∀ o : OutId, (s.stillUnit.runningOf o).isSome = true → s.stillUnit.pendingOf o = none

/-! ### The frame store (R48, R49, R60, R85, R87) -/

/-- Every registration job, running or waiting. -/
def Engine.jobs (e : Engine) : List Job := (e.running.map (·.job)).toList ++ e.queue

/-- A camera's capture-order list holds its slots that are not FREE, each once; those and no others hold a record; its
FILLING slot is the one its link is receiving into, which it does in LOCKED alone; its SCORED slots are those of its
jobs. -/
def State.RingOk (s : State) (c : CamId) : Prop :=
  (s.ring c).order.Nodup ∧
    (∀ k : SlotId, k ∈ (s.ring c).order ↔ (s.slot c k).state ≠ .free) ∧
    (∀ k : SlotId, (s.slot c k).record.isSome = true ↔ (s.slot c k).state ≠ .free) ∧
    (∀ k : SlotId, (s.slot c k).state = .filling ↔ (s.link c).progress = .receiving k) ∧
    ((s.link c).progress ≠ .none → (s.link c).state = .locked) ∧
    ∀ k : SlotId, (s.slot c k).state = .scored ↔ ⟨c, k⟩ ∈ s.engine.jobs

/-- Every ring in order, no slot with two jobs, no camera with two waiting ones, and an idle engine with none. -/
def State.StoreOk (s : State) : Prop :=
  (∀ c : CamId, s.RingOk c) ∧ s.engine.jobs.Nodup ∧ (s.engine.queue.map (·.cam)).Nodup ∧
    (s.engine.running = none → s.engine.queue = [])

/-! ### Pins (R50, R135) -/

/-- How many of some (camera, slot) holders hold slot `k` of camera `c`. -/
def holdersOf (l : List (CamId × Option SlotId)) (c : CamId) (k : SlotId) : Nat := l.count (c, some k)

/-- Everything that holds a slot: the windows of both outputs and the sources of the running copy. -/
def State.pinHolders (s : State) : List (CamId × Option SlotId) :=
  [((s.output .a).win1.cam, (s.output .a).win1.slot), ((s.output .a).win2.cam, (s.output .a).win2.slot),
    ((s.output .b).win1.cam, (s.output .b).win1.slot), ((s.output .b).win2.cam, (s.output .b).win2.slot)] ++
    (match s.stillUnit.running with
      | none => []
      | some (_, src) => src.windows.map (fun w => (w.cam, w.slot)))

/-- Every slot's pin count is the number of its holders, at most three, and a pinned slot is READY; the two windows of an
output, or the two sources of a copy, never hold slots of one camera; the second window holds a slot only while a SPLIT
is shown. -/
def State.PinsOk (s : State) : Prop :=
  (∀ (c : CamId) (k : SlotId), (s.slot c k).pins = holdersOf s.pinHolders c k ∧ (s.slot c k).pins ≤ 3 ∧
      (0 < (s.slot c k).pins → (s.slot c k).state = .ready)) ∧
    (∀ o : OutId, (s.output o).win1.slot.isSome = true → (s.output o).win2.slot.isSome = true →
      (s.output o).win1.cam ≠ (s.output o).win2.cam) ∧
    (∀ o : OutId, (s.output o).win2.slot.isSome = true → (s.output o).shown.layout = .split) ∧
    ∀ r w v, s.stillUnit.running = some (r, .split w v) → w.slot.isSome = true → v.slot.isSome = true → w.cam ≠ v.cam

/-- Between `s` and `t`, the frame store took the pins of some holders and released those of others, and nothing else of it
changed (R50, R135). -/
def State.RepinnedBy (s t : State) (taken released : List (CamId × Option SlotId)) : Prop :=
  ∀ c : CamId, (t.ring c) = { s.ring c with slots := (t.ring c).slots } ∧
    ∀ k : SlotId, t.slot c k = { s.slot c k with pins := (t.slot c k).pins } ∧
      (t.slot c k).pins + holdersOf released c k = (s.slot c k).pins + holdersOf taken c k

/-! ### Frames: what a family of events leaves alone -/

/-- The interface after it was asked for some messages, in order, none of them an OUTBOUND_DROP notice (R193 alone makes
those). -/
def Interface.Asked (a b : Interface) : Prop :=
  ∃ ms : List Message, (∀ m ∈ ms, m.key ≠ (dropNotice 0).key) ∧ b = ms.foldl Interface.place a

/-- A ring but for the pin counts of its slots. -/
def Ring.apartFromPins (r : Ring) : Ring := { r with slots := r.slots.map (fun k => { k with pins := 0 }) }

/-- What link, frame store, screen, engine and table events leave alone; of the interface they only ask messages. -/
structure State.PictureFrame (s t : State) : Prop where
  pending : t.pending = s.pending
  held : t.held = s.held
  timebase : t.timebase = s.timebase
  setup : t.setup = s.setup
  params : t.params = s.params
  channels : t.channels = s.channels
  outputs : t.outputs = s.outputs
  arbiter : t.arbiter = s.arbiter
  stillUnit : t.stillUnit = s.stillUnit
  mi : s.mi.Asked t.mi

/-- What encoder events leave alone; they reach the arbiter, and through it the outputs, the still unit and the pin
counts (R135: pins are the only write of the outputs into the frame store). -/
structure State.MachineFrame (s t : State) : Prop where
  pending : t.pending = s.pending
  held : t.held = s.held
  timebase : t.timebase = s.timebase
  setup : t.setup = s.setup
  params : t.params = s.params
  links : t.links = s.links
  rings : ∀ c : CamId, (t.ring c).apartFromPins = (s.ring c).apartFromPins
  screens : t.screens = s.screens
  contexts : t.contexts = s.contexts
  engine : t.engine = s.engine
  tables : t.tables = s.tables
  mi : s.mi.Asked t.mi

/-- What arbiter events leave alone: besides the frame of encoder events, the channels. -/
structure State.ViewFrame (s t : State) : Prop extends State.MachineFrame s t where
  channels : t.channels = s.channels

/-- What output and still events leave alone: besides the frame of arbiter events, the arbiter. -/
structure State.OutputFrame (s t : State) : Prop extends State.ViewFrame s t where
  arbiter : t.arbiter = s.arbiter

/-! ### Frames that end (R19, R20, R58) -/

/-- The state in which a frame received into slot `k` ends: the marker has restarted the signal-loss timer, the reference
offers `offered`, and a line still open has been settled as bad. -/
def State.atFrameEnd (s : State) (c : CamId) (k : SlotId) (offered : Tap) : State :=
  (s.setLink c { s.link c with timerStart := s.timebase, offered := offered }).settleOpenBad c k

/-- The malformed end of a frame: its tail is counted, its slot is FREE, and it is counted at the store and at the
link. -/
def State.malformedFrame (v : State) (c : CamId) (k : SlotId) : State :=
  { v with
    links := v.links.set c { v.link c with
      progress := .none
      concealed := (v.link c).concealed + (480 - (v.link c).nextPos)
      consecMalformed := (v.link c).consecMalformed + 1 }
    rings := v.rings.set c { v.ring c with
      slots := (v.ring c).slots.set k { v.slot c k with state := .free, record := none }
      order := (v.ring c).order.filter (· ≠ k)
      malformed := bump (v.ring c).malformed } }

/-- The same at the third malformed frame in a row: FRAME_MALFORMED, then LINK_LOST, and the link leaves LOCKED. -/
def State.thirdMalformed (v : State) (c : CamId) (k : SlotId) : State :=
  let w := v.malformedFrame c k
  let runs := bump (v.link c).malformedRunCount
  let lost := bump (v.link c).lossCount
  { w with
    links := w.links.set c { w.link c with
      malformedRunCount := runs, lossCount := lost, state := .acquire, attempts := 0, timerStart := v.timebase
      refLocked := false, updatePending := false, openLine := none }
    contexts := v.contexts.set c { v.context c with
      reference := none
      refLost := (v.context c).refLost || v.engine.running.any (fun j => j.job.cam = c) }
    screens := v.screens.set c { v.screen c with clearRef := 0, rejectedRun := 0 }
    mi := (v.mi.place (.faultNotice .frameMalformed c.num runs)).place (.faultNotice .linkLost c.num lost) }

/-! ### Messages from known nodes -/

/-- The part runs, its controller is on the bus, and the node code names requester slot `k`. -/
def State.Hears (s : State) (node : Byte) (k : ReqSlot) : Prop :=
  s.held = false ∧ s.mi.onBus = true ∧ s.matchNode node = some k

/-- The state in which a message of requester `k` acts: the receive error count lowered (R200) and the requester heard
(R152). -/
def State.heard (s : State) (k : ReqSlot) : State :=
  { s with
    mi := s.mi.withErrors s.mi.txErrors (s.mi.rxErrors - 1)
    arbiter := { s.arbiter with lastHeard := s.arbiter.lastHeard.set k (some s.timebase) } }

/-! ### Parameter writes that are stored -/

/-- Neither the guard nor an enabled channel refuses a write of the parameter (R205, steps 3 and 4). -/
def State.Takes (s : State) (id : ParamId) : Prop :=
  (id.guarded = true → s.setup = true) ∧ s.refusesBusy id = false

/-- The state with the value that a write of `v` stores. -/
def State.stored (s : State) (id : ParamId) (v : Int) : State :=
  { s with params := s.params.write id (s.params.fit id v) }

/-- The state `t` with the reply to a stored write of `v` asked for, `s` being the state before the write (R189). -/
def State.replied (t s : State) (node : Byte) (id : ParamId) (v : Int) : State :=
  t.ask (.paramReply node id.word (if s.params.clampsWrite id v then .clamped else .ok)
    (BitVec.ofInt 32 (s.params.fit id v)))

/-! ### Grants (R158–R165) -/

/-- Requester `h` has the best entry of output `o`: no other has a higher priority, and among equals none is later. -/
def State.Best (t : State) (o : OutId) (h : Requester) : Prop :=
  ∃ e, t.entry? o h = some e ∧ ∀ q e', t.entry? o q = some e' →
    e'.priority < e.priority ∨ (e'.priority = e.priority ∧ e'.order ≤ e.order)

/-- Between `s` and `t`, the message `m` was asked for. -/
def State.AskedFor (s t : State) (m : Message) : Prop :=
  ∃ ms : List Message, m ∈ ms ∧ t.mi = ms.foldl Interface.place s.mi

/-- Between `s` and `t`, output `o` was granted to requester `r`, which left its grant count at `count`: the grant is new, its
view is handed to the compositor, the freeze ends, no copy of the output is left, and a VIEW STATUS was asked for. -/
def State.GrantedCounting (s t : State) (o : OutId) (r : Requester) (count : Nat) : Prop :=
  t.outGrant o =
      { holder := some r, grantTime := s.timebase, dwellRunning := decide (0 < s.params.dwell), candidate := none
        grantCount := count, grantOrder := (t.outGrant o).grantOrder } ∧
    (s.arbiter.receipts ≤ (t.outGrant o).grantOrder ∧ (t.outGrant o).grantOrder ≤ t.arbiter.receipts) ∧
    (∃ e, t.entry? o r = some e ∧ t.output o = { s.output o with grant := some e.view, frozen := false }) ∧
    t.stillUnit.busy o = false ∧ s.AskedFor t (.viewStatus o)

/-- Between `s` and `t`, output `o` was granted to requester `r` by one grant change. -/
def State.GrantedTo (s t : State) (o : OutId) (r : Requester) : Prop :=
  s.GrantedCounting t o r (bump (s.outGrant o).grantCount)

/-- Between `s` and `t`, output `o` was left without entries and granted its default view. -/
def State.Defaulted (s t : State) (o : OutId) : Prop :=
  t.outGrant o =
      { s.outGrant o with
        holder := none, dwellRunning := false, candidate := none, grantCount := bump (s.outGrant o).grantCount } ∧
    t.output o = { s.output o with grant := none, frozen := false } ∧ t.stillUnit.busy o = false ∧
    s.AskedFor t (.viewStatus o)

/-- Between `s` and `t`, the grant of output `o` stayed; its candidate was formed afresh. -/
def State.GrantKept (s t : State) (o : OutId) : Prop :=
  t.outGrant o = { s.outGrant o with candidate := (t.requests o).candidateFor (s.outGrant o) } ∧
    t.output o = s.output o

/-- Between `s` and `t`, requester `r`'s entry left output `o`; where it was the holder's, the output was granted its default
view, or the best entry that remained, which left its grant count at `count`. -/
def State.EntryLeftCounting (s t : State) (o : OutId) (r : Requester) (count : Nat) : Prop :=
  (∀ q, t.entry? o q = if q = r then none else s.entry? o q) ∧
    ((s.outGrant o).holder ≠ some r → s.GrantKept t o) ∧
    ((s.outGrant o).holder = some r →
      ((∀ q, t.entry? o q = none) → s.Defaulted t o) ∧
        ((∃ q e, t.entry? o q = some e) → ∃ h, t.Best o h ∧ s.GrantedCounting t o h count))

/-- Between `s` and `t`, requester `r`'s entry left output `o`, a removal that re-grants the output being one grant change
(R164). -/
def State.EntryLeft (s t : State) (o : OutId) (r : Requester) : Prop :=
  s.EntryLeftCounting t o r (bump (s.outGrant o).grantCount)

/-- Between `s` and `t`, requester `r`'s entry left output `o` by the keep-alive expiry, whose removal and re-grant are two
grant changes, each counted (R165; log entry 29). -/
def State.EntryExpired (s t : State) (o : OutId) (r : Requester) : Prop :=
  s.EntryLeftCounting t o r (bump (bump (s.outGrant o).grantCount))

/-- Between `s` and `t`, requester `r`'s entry `e`, now the latest received, was created for output `o` or replaced the
one it had, and the output was arbitrated (R158–R161, R163): without a holder it is granted to `r`; another's holding is
overtaken by a higher priority, or by an equal one when the dwell is ELAPSED; an equal one within the dwell is the
candidate; the holder's own update keeps the output unless another entry now has a higher priority. -/
def State.EntryMade (s t : State) (o : OutId) (r : Requester) (e : Entry) : Prop :=
  (∀ q, t.entry? o q = if q = r then some e else s.entry? o q) ∧
    ((s.outGrant o).holder = none → s.GrantedTo t o r) ∧
    (∀ h he, (s.outGrant o).holder = some h → h ≠ r → s.entry? o h = some he →
      (he.priority < e.priority → s.GrantedTo t o r) ∧
        (e.priority = he.priority → (s.outGrant o).dwellRunning = false → s.GrantedTo t o r) ∧
        (e.priority = he.priority → (s.outGrant o).dwellRunning = true →
          s.GrantKept t o ∧ (t.outGrant o).candidate = some r) ∧
        (e.priority < he.priority → s.GrantKept t o)) ∧
    ((s.outGrant o).holder = some r →
      ((∀ q e', q ≠ r → s.entry? o q = some e' → e'.priority ≤ e.priority) → s.GrantedTo t o r) ∧
        ((∃ q e', q ≠ r ∧ s.entry? o q = some e' ∧ e.priority < e'.priority) →
          ∃ h, h ≠ r ∧ t.Best o h ∧ s.GrantedTo t o h))

/-- Output `o` and its entries stayed as they were. -/
def State.OutputAlone (s t : State) (o : OutId) : Prop :=
  t.requests o = s.requests o ∧ t.outGrant o = s.outGrant o ∧ t.output o = s.output o

end Sys2Proof.Machine
end

