-- ==== Sys2Proof/Certificates/Slice0/Obligations.lean ====
section
/-! DEFINITION. The statements about the part, family by family. Each speaks of the state before the head of the outbound
queue is taken into the transmit buffer: `takeHead`, which ends every command, has a statement of its own. -/

open Sys2Proof Sys2Proof.Machine

/-! ### Steps, power and the RESET and SETUP lines -/

/-- A step with a command at the front of the queue runs that command with the rest of the queue waiting. The model's choice
(log entry 3): a step with no command waiting is one microsecond of the timebase, and nothing at all while the part is
held; everything else stays. -/
def Obligations.StepTakesTheFront : Prop :=
  (∀ (c : Instr) (s : State) (rest : List Instr),
    step { s with pending := c :: rest } = exec c { s with pending := rest }) ∧
  ∀ s : State, s.pending = [] →
    (s.held = false → step s = .next { s with timebase := s.timebase + 1 }) ∧ (s.held = true → step s = .next s)

/-- POWER_ON and RESET_LINE start the part alike: every block in the state its chapter gives (R211 and the tables it
names), whatever the state before. -/
def Obligations.PowerUpState : Prop :=
  ∀ (l : BootLevels) (s : State), ∃ t : State,
    exec (.powerOn l) s = .next t ∧ exec (.resetLine l) s = .next t ∧
    (t.held = false ∧ t.timebase = 0 ∧ t.setup = l.setup ∧ t.params = Params.default ∧ t.pending = s.pending) ∧
    (∀ c : CamId, (t.link c).state = .acquire ∧ (t.link c).attempts = 0 ∧ (t.link c).tap = 0 ∧
      (t.link c).refLocked = false ∧ (t.link c).updatePending = false ∧ (t.link c).framesSinceUpdate = 0 ∧
      (t.link c).progress = .none ∧ (t.link c).consecMalformed = 0 ∧ (t.link c).lossCount = 0 ∧
      (t.link c).failureCount = 0 ∧ (t.link c).malformedRunCount = 0 ∧ (t.link c).lastFrameCounter = 0) ∧
    (∀ e : ChanId, t.channel e = Channel.initial (l.encoders.get e) ∧ (t.channel e).state = .disabled ∧
      (t.channel e).position = 0 ∧ (t.channel e).lastDir = .up ∧ (t.channel e).auger = .unknown ∧
      (t.channel e).lastIndex = none ∧ (t.channel e).period = none ∧ (t.channel e).armed = false) ∧
    (∀ c : CamId, (∀ k : SlotId, (t.slot c k).state = .free ∧ (t.slot c k).pins = 0 ∧ (t.slot c k).record = none) ∧
      (t.ring c).order = [] ∧ (t.ring c).seqCounter = 0 ∧ (t.ring c).received = 0 ∧ (t.ring c).malformed = 0 ∧
      (t.ring c).rejected = 0 ∧ (t.ring c).forced = 0 ∧ (t.ring c).overruns = 0 ∧ (t.ring c).superseded = 0 ∧
      (t.ring c).aborted = 0) ∧
    (∀ c : CamId, t.screen c = ⟨0, 0, 0, .none⟩) ∧
    (t.engine = ⟨none, []⟩ ∧ ∀ c : CamId, (t.context c).reference = none ∧ (t.context c).refOff = ⟨0, 0⟩ ∧
      (t.context c).drift = ⟨0, 0⟩ ∧ (t.context c).lastS = ⟨0, 0⟩ ∧ (t.context c).validRun = 0 ∧
      (t.context c).invalidRun = 0 ∧ (t.context c).refreshPending = false ∧ (t.context c).refLost = false ∧
      (t.context c).lastResult = none ∧ (t.context c).jobs = 0 ∧ (t.context c).edges = 0 ∧ (t.context c).poors = 0 ∧
      (t.context c).refreshes = 0) ∧
    (∀ c : CamId, t.table c = ⟨List.replicate 32 ⟨⟨0, 0⟩, ⟨0, 0⟩⟩, none, 0, 0, 0⟩) ∧
    ((t.output .a).shown = .full .cam0 ∧ (t.output .b).shown = .full .cam1 ∧ ∀ o : OutId,
      (t.output o).grant = none ∧ (t.output o).frozen = false ∧ (t.output o).mode = .liveView ∧
      (t.output o).win1.slot = none ∧ (t.output o).win2.slot = none ∧ (t.output o).win1.ox = 0 ∧
      (t.output o).win1.oy = 0 ∧ (t.output o).win1.border = .noSignal ∧ (t.output o).frameStart = 0) ∧
    ((∀ k : ReqSlot, t.arbiter.lastHeard.get k = none ∧ t.arbiter.expiryCount.get k = 0) ∧ ∀ o : OutId,
      (∀ r, t.entry? o r = none) ∧ (t.outGrant o).holder = none ∧ (t.outGrant o).grantTime = 0 ∧
      (t.outGrant o).dwellRunning = false ∧ (t.outGrant o).candidate = none ∧ (t.outGrant o).grantCount = 0) ∧
    (t.stillUnit.running = none ∧ t.stillUnit.waiting = [] ∧ ∀ o : OutId, (t.still o).valid = false ∧
      (t.still o).desc = none ∧ (t.still o).completed = 0 ∧ (t.still o).cancelled = 0 ∧ (t.still o).aborted = 0) ∧
    (t.mi.rateHigh = l.rateHigh ∧ t.mi.idStrap = l.idStrap ∧ t.mi.busState = .joining ∧ t.mi.txErrors = 0 ∧
      t.mi.rxErrors = 0 ∧ t.mi.queue = [.viewStatus .a, .viewStatus .b] ∧ t.mi.txBuffer = none ∧
      t.mi.dropPending = false ∧ t.mi.viewTimer = 0 ∧ t.mi.camTimer = 0 ∧ t.mi.encTimer = 0 ∧ t.mi.camTurn = .cam0 ∧
      t.mi.chanTurn = .ec0 ∧ t.mi.dropCount = 0 ∧ t.mi.busOffCount = 0)

/-- The state after reset, which is the state after a POWER_ON that finds every pin low (log entry 1), satisfies each
property that the invariants below keep. -/
def Obligations.ResetSatisfiesInvariants : Prop :=
  State.reset.mi.QueueOk ∧ State.reset.params.InRange ∧ State.reset.ScreensOk ∧ State.reset.TablesOk ∧
    State.reset.RowsOk ∧ State.reset.ChannelsOk ∧ State.reset.HoldersOk ∧ State.reset.OrdersOk ∧ State.reset.AugerOk ∧
    State.reset.FreezeOk ∧ State.reset.CopiesOk ∧ State.reset.StoreOk ∧ State.reset.PinsOk

/-- The RESET and SETUP lines. RESET_LINE_ACTIVE discards all in-flight work and holds the part: no job, copy, request, answer
or frame is left, and each video port sends black; a change of the SETUP line, held or not, changes its level and nothing else (R204, R211).
The model's choice (log entry 24): while the part is held its blocks stand in their power-up state, VIEW STATUS A and B
queued, and every command but the power, RESET and SETUP events has no effect. -/
def Obligations.ResetAndSetupLines : Prop :=
  (∀ s : State, ∃ t : State, exec .resetLineActive s = .next t ∧ t.held = true ∧ t.pending = s.pending ∧
    t.setup = s.setup ∧ t.engine = ⟨none, []⟩ ∧ t.stillUnit.running = none ∧ t.stillUnit.waiting = [] ∧
    t.mi.txBuffer = none ∧ t.mi.queue = [.viewStatus .a, .viewStatus .b] ∧
    (∀ (o : OutId) (r : Requester), t.entry? o r = none) ∧ (∀ (c : CamId) (k : SlotId), (t.slot c k).state = .free) ∧
    ∀ (o : OutId) (x y : Nat), t.rasterPixel o x y = 0x1080#16) ∧
  (∀ (c : Instr) (s : State), s.held = true →
    (∀ l, c ≠ .powerOn l) → (∀ l, c ≠ .resetLine l) → (∀ b, c ≠ .setupLineChange b) → c ≠ .resetLineActive →
    exec c s = .next s) ∧
  ∀ (level : Bool) (s : State), exec (.setupLineChange level) s = .next { s with setup := level }
/-! ### Properties that every step keeps -/

/-- The outbound queue holds at most eight messages, no two with the same kind and subject (R192), and no OUTBOUND_DROP
notice while one is owed (R193). -/
def Obligations.QueueFormKept : Prop :=
  ∀ s t : State, s.mi.QueueOk → step s = .next t → t.mi.QueueOk

/-- Every bounded value stays within its bounds: every parameter within its range, NOMINAL_X even, RASTER_RATE 50 or 60
(R203, R206), and IN_THRESHOLD below OUT_THRESHOLD (R40); a camera's rejected-run at most its HOLD_LIMIT (R76, R78); every
phase table at 32 bins, its values within ±768 q4 across and ±512 q4 down and its confidences within 0–15 (R108). -/
def Obligations.ValuesStayInRange : Prop :=
  ∀ s t : State, step s = .next t →
    (s.params.InRange → t.params.InRange) ∧ (s.ScreensOk → t.ScreensOk) ∧ (s.TablesOk → t.TablesOk)

/-- The frame buffers and the stills keep the model's canonical form of stored rows (its choice, log entry 2), whoever writes
a row: a line, or the completion of a copy (R18, R178). -/
def Obligations.FrameBuffersStayCanonical : Prop :=
  ∀ s t : State, s.RowsOk → step s = .next t → t.RowsOk

/-- Every channel's position stays within its mode's range (R27, R28), its period is valid exactly in RUNNING (R35), and
its state and auger state stay legal for its ENABLE and MODE (R33, R34, R39). -/
def Obligations.ChannelsStayLegal : Prop :=
  ∀ s t : State, s.params.InRange → s.ChannelsOk → step s = .next t → t.ChannelsOk

/-- An output has a holder whenever it has an entry, an entry of the highest priority, and none when it has none (R158);
receipts stay in order. -/
def Obligations.HolderHasHighestPriority : Prop :=
  ∀ s t : State, s.HoldersOk → s.OrdersOk → step s = .next t → t.HoldersOk ∧ t.OrdersOk

/-- The auger requester has an entry exactly while channel 2's auger state is OUT and AUGER_PRIORITY is above 0: on
AUGER_OUTPUT, FULL on AUGER_CAMERA, at AUGER_PRIORITY, persistent (R169, R170, R172). -/
def Obligations.AugerEntryFollowsChannelTwo : Prop :=
  ∀ s t : State, s.ChannelsOk → s.AugerOk → step s = .next t → t.AugerOk

/-- An output is frozen, and shows its still, only while the still is valid (R182), and then pins no slot (R143); each
output has at most one copy, and none waits for an idle copier (R175, R176). -/
def Obligations.FrozenOnlyWithValidStill : Prop :=
  ∀ s t : State, s.FreezeOk → s.CopiesOk → step s = .next t → t.FreezeOk ∧ t.CopiesOk

/-- Every camera's capture-order list, slots, records, link and registration jobs agree (R48, R49, R60, R86). -/
def Obligations.FrameStoreStaysConsistent : Prop :=
  ∀ s t : State, s.StoreOk → step s = .next t → t.StoreOk

/-- A slot's pin count is the number of windows and copy sources that hold it, never above three, and a pinned slot is
READY (R50). -/
def Obligations.PinCountsStayExact : Prop :=
  ∀ s t : State, s.PinsOk → step s = .next t → t.PinsOk

/-! ### Camera links -/

/-- REFERENCE_LOCK in ACQUIRE: a tap update is applied and the link enters VERIFY with its gate open; in every other state it has
no effect. GATE_END with a count within LINK_RATE ± floor(LINK_RATE / 200) enters LOCKED. BACKOFF_END, 2,000 ms after entry to
FAILED, enters ACQUIRE with attempts 0 (R5–R8, R13). -/
def Obligations.LinkTraining : Prop :=
  (∀ (s : State) (c : CamId) (offered : Tap), s.held = false →
     ((s.link c).state = .acquire → (s.link c).openLine = none →
       exec (.referenceLock c offered) s = .next (takeHead (s.setLink c { s.link c with
         state := .verify
         timerStart := s.timebase
         gateRate := (s.camParams c).linkRate
         wordClocks := 0
         refLocked := true
         offered := offered
         tap := if 0 ≤ (s.camParams c).tapOverride then BitVec.ofInt 7 (s.camParams c).tapOverride else offered }))) ∧
     ((s.link c).state ≠ .acquire → exec (.referenceLock c offered) s = .next (takeHead s))) ∧
  ∀ (s : State) (c : CamId), s.held = false →
    ((s.link c).state = .verify → 1000 ≤ (s.timebase - (s.link c).timerStart).toNat →
      (s.link c).gateRate ≤ (s.link c).wordClocks + (s.link c).gateRate / 200 →
      (s.link c).wordClocks ≤ (s.link c).gateRate + (s.link c).gateRate / 200 →
      exec (.gateEnd c) s = .next (takeHead (s.setLink c { s.link c with
        state := .locked, timerStart := s.timebase, consecMalformed := 0, framesSinceUpdate := 0
        updatePending := false, progress := .none, openLine := none }))) ∧
    ((s.link c).state = .failed → 2000000 ≤ (s.timebase - (s.link c).timerStart).toNat →
      exec (.backoffEnd c) s = .next (takeHead (s.setLink c { s.link c with
        state := .acquire, attempts := 0, timerStart := s.timebase, refLocked := false
        updatePending := false, progress := .none, openLine := none })))

/-- A failed attempt, by ACQUIRE_TIMEOUT 1 ms after entry to ACQUIRE, by a GATE_END whose count lies outside the tolerance,
or by a REFERENCE_UNLOCK in VERIFY: below four attempts the link re-enters ACQUIRE, at the fourth it enters FAILED and
LINK_FAILED is sent (R5, R6, R7). -/
def Obligations.FailedAttempt : Prop :=
  ∀ (s t : State) (c : CamId), s.held = false →
    ((s.link c).attempts + 1 < 4 → t = s.setLink c { s.link c with
      state := .acquire, attempts := (s.link c).attempts + 1, timerStart := s.timebase, refLocked := false
      updatePending := false, progress := .none, openLine := none }) →
    (4 ≤ (s.link c).attempts + 1 → t = (s.setLink c { s.link c with
      state := .failed, attempts := 4, timerStart := s.timebase, refLocked := false
      failureCount := bump (s.link c).failureCount }).ask
        (.faultNotice .linkFailed c.num (bump (s.link c).failureCount))) →
    ((s.link c).state = .acquire → 1000 ≤ (s.timebase - (s.link c).timerStart).toNat →
      exec (.acquireTimeout c) s = .next (takeHead t)) ∧
    ((s.link c).state = .verify → 1000 ≤ (s.timebase - (s.link c).timerStart).toNat →
      ((s.link c).wordClocks + (s.link c).gateRate / 200 < (s.link c).gateRate ∨
        (s.link c).gateRate + (s.link c).gateRate / 200 < (s.link c).wordClocks) →
      exec (.gateEnd c) s = .next (takeHead t)) ∧
    ((s.link c).state = .verify → exec (.referenceUnlock c) s = .next (takeHead t))

/-- In VERIFY every link word is counted as a word clock, the words of a marker together (log entry 6), and nothing else
comes of it (R6); in DOWN, ACQUIRE and FAILED every link word is discarded (R4, R5, R7). -/
def Obligations.WordsCountedInVerifyAlone : Prop :=
  ∀ (s : State) (c : CamId) (w : Word) (b : Byte) (o : Tap), s.held = false →
    ((s.link c).state = .verify →
      let counted (n : Nat) := s.setLink c { s.link c with wordClocks := (s.link c).wordClocks + n }
      exec (.wordClock c) s = .next (takeHead (counted 1)) ∧ exec (.pixelWord c w) s = .next (takeHead (counted 1)) ∧
      exec (.frameStart c b o) s = .next (takeHead (counted 2)) ∧
      exec (.lineStart c w) s = .next (takeHead (counted 2)) ∧ exec (.lineEnd c w) s = .next (takeHead (counted 2)) ∧
      exec (.frameEnd c o) s = .next (takeHead (counted 1))) ∧
    ((s.link c).state = .down ∨ (s.link c).state = .acquire ∨ (s.link c).state = .failed →
      exec (.wordClock c) s = .next (takeHead s) ∧ exec (.pixelWord c w) s = .next (takeHead s) ∧
      exec (.frameStart c b o) s = .next (takeHead s) ∧ exec (.lineStart c w) s = .next (takeHead s) ∧
      exec (.lineEnd c w) s = .next (takeHead s) ∧ exec (.frameEnd c o) s = .next (takeHead s))

/-- A link leaves LOCKED by SIGNAL_LOSS after 2 ms without a marker, by REFERENCE_UNLOCK or by LINK_RESET: the loss is
counted and LINK_LOST sent, the frame in progress aborted, the reference and the screen's measure discarded, and the link
enters ACQUIRE with attempts 0. LINK_RESET in ACQUIRE, VERIFY and FAILED enters ACQUIRE afresh without a fault notice and in
DOWN does nothing; it is answered OK in every state (R7, R9–R11, R63, R82, R102). Read from the spec by inference: that
SIGNAL_LOSS and REFERENCE_UNLOCK too leave the link no longer update-pending, no line open (log entry 21). -/
def Obligations.LeavingLockedAndLinkReset : Prop :=
  (∀ (u t : State) (c : CamId), (u.link c).state = .locked →
     t = { u with
       links := u.links.set c { u.link c with
         state := .acquire, attempts := 0, timerStart := u.timebase, refLocked := false, updatePending := false
         progress := .none, openLine := none, lossCount := bump (u.link c).lossCount }
       rings := (u.ring c).filling?.elim u.rings (fun k => u.rings.set c { u.ring c with
         slots := (u.ring c).slots.set k { u.slot c k with state := .free, record := none }
         order := (u.ring c).order.filter (· ≠ k)
         aborted := bump (u.ring c).aborted })
       contexts := u.contexts.set c { u.context c with
         reference := none
         refLost := (u.context c).refLost || u.engine.running.any (fun j => j.job.cam = c) }
       screens := u.screens.set c { u.screen c with clearRef := 0, rejectedRun := 0 }
       mi := u.mi.place (.faultNotice .linkLost c.num (bump (u.link c).lossCount)) } →
     (u.held = false → 2000 ≤ (u.timebase - (u.link c).timerStart).toNat →
       exec (.signalLoss c) u = .next (takeHead t)) ∧
     (u.held = false → exec (.referenceUnlock c) u = .next (takeHead t)) ∧
     ∀ s node k, s.Hears node k → u = s.heard k →
       exec (.linkReset node c 0) s = .next (takeHead (t.ask (.requestResult node (byteOf c.num 0) .command .ok)))) ∧
  ∀ (s : State) (node : Byte) (k : ReqSlot) (c : CamId), s.Hears node k →
    let u := s.heard k
    ((s.link c).state = .acquire ∨ (s.link c).state = .verify ∨ (s.link c).state = .failed →
      exec (.linkReset node c 0) s = .next (takeHead ((u.setLink c { s.link c with
        state := .acquire, attempts := 0, timerStart := s.timebase, refLocked := false, updatePending := false
        progress := .none, openLine := none }).ask (.requestResult node (byteOf c.num 0) .command .ok)))) ∧
    ((s.link c).state = .down →
      exec (.linkReset node c 0) s = .next (takeHead (u.ask (.requestResult node (byteOf c.num 0) .command .ok))))

/-- LINK_ENABLE: written from 0 to 1 it takes a link in DOWN to ACQUIRE with attempts 0; written to 0 it takes the link to
DOWN, out of LOCKED with the effects of link-down and without a fault notice; written with the value it holds it changes
nothing; above 1 or below 0 it is clamped (R4, R10, R206). -/
def Obligations.LinkEnableWrite : Prop :=
  ∀ (s : State) (node : Byte) (k : ReqSlot) (c : CamId) (value : BitVec 32), s.Hears node k →
    let u := (s.heard k).stored (.cam c .linkEnable) value.toInt
    let l := s.link c
    let answered (t : State) := Host.Outcome.next (φ := Fault) (ρ := Refusal)
      (takeHead (t.replied (s.heard k) node (.cam c .linkEnable) value.toInt))
    let downLink : Link :=
      { l with state := .down, refLocked := false, updatePending := false, progress := .none, openLine := none }
    ((s.camParams c).linkEnable = true → 1 ≤ value.toInt → exec (.linkEnable node c value) s = answered u) ∧
    ((s.camParams c).linkEnable = false → value.toInt ≤ 0 → exec (.linkEnable node c value) s = answered u) ∧
    ((s.camParams c).linkEnable = false → 1 ≤ value.toInt → l.state = .down →
      exec (.linkEnable node c value) s = answered (u.setLink c { l with
        state := .acquire, attempts := 0, timerStart := s.timebase, refLocked := false, updatePending := false
        progress := .none, openLine := none })) ∧
    ((s.camParams c).linkEnable = true → value.toInt ≤ 0 → l.state ≠ .locked →
      exec (.linkEnable node c value) s = answered (u.setLink c downLink)) ∧
    ((s.camParams c).linkEnable = true → value.toInt ≤ 0 → l.state = .locked →
      exec (.linkEnable node c value) s = answered { u with
        links := s.links.set c downLink
        rings := (s.ring c).filling?.elim s.rings (fun j => s.rings.set c { s.ring c with
          slots := (s.ring c).slots.set j { s.slot c j with state := .free, record := none }
          order := (s.ring c).order.filter (· ≠ j)
          aborted := bump (s.ring c).aborted })
        contexts := s.contexts.set c { s.context c with
          reference := none
          refLost := (s.context c).refLost || s.engine.running.any (fun j => j.job.cam = c) }
        screens := s.screens.set c { s.screen c with clearRef := 0, rejectedRun := 0 } })

/-- Tap updates in LOCKED: FORCE_TAP_UPDATE and a stored write of TAP_OVERRIDE make an update due, which TAP_GATE = 0
applies at once and TAP_GATE = 1 sets pending; a write of TAP_GATE from 1 to 0 applies a pending one; a changed tap makes
an open line bad (R13, R14, R15). Outside LOCKED none of them moves the tap. -/
def Obligations.TapUpdates : Prop :=
  ∀ (s : State) (node : Byte) (k : ReqSlot) (c : CamId) (offered : Tap) (value : BitVec 32), s.Hears node k →
    let u := s.heard k
    let l := { s.link c with offered := offered }
    let loaded (override : Int) : Link :=
      let t := if 0 ≤ override then BitVec.ofInt 7 override else offered
      { l with
        tap := t
        openLine := if t = l.tap then l.openLine else l.openLine.map (fun o => { o with bad := true }) }
    let ok := Message.requestResult node (byteOf c.num 0) .command .ok
    let written := clamp value.toInt (-1) 127
    ((s.link c).state = .locked → (s.camParams c).tapGate = false →
      exec (.forceTapUpdate node c 0 offered) s =
        .next (takeHead ((u.setLink c (loaded (s.camParams c).tapOverride)).ask ok))) ∧
    ((s.link c).state = .locked → (s.camParams c).tapGate = true →
      exec (.forceTapUpdate node c 0 offered) s =
        .next (takeHead ((u.setLink c { l with updatePending := true }).ask ok))) ∧
    ((s.link c).state ≠ .locked →
      exec (.forceTapUpdate node c 0 offered) s = .next (takeHead ((u.setLink c l).ask ok))) ∧
    (s.setup = true → (s.link c).state = .locked → (s.camParams c).tapGate = false →
      exec (.tapOverride node c value offered) s = .next (takeHead
        (((u.stored (.cam c .tapOverride) value.toInt).setLink c (loaded written)).replied u node (.cam c .tapOverride)
          value.toInt))) ∧
    (s.setup = true → (s.link c).state = .locked → (s.camParams c).tapGate = true →
      exec (.tapOverride node c value offered) s = .next (takeHead
        (((u.stored (.cam c .tapOverride) value.toInt).setLink c { l with updatePending := true }).replied u node
          (.cam c .tapOverride) value.toInt))) ∧
    (s.setup = true → (s.link c).state ≠ .locked →
      exec (.tapOverride node c value offered) s = .next (takeHead
        (((u.stored (.cam c .tapOverride) value.toInt).setLink c l).replied u node (.cam c .tapOverride)
          value.toInt))) ∧
    ((s.camParams c).tapGate = true → value.toInt ≤ 0 → (s.link c).state = .locked → (s.link c).updatePending = true →
      exec (.tapGate node c value offered) s = .next (takeHead
        (((u.stored (.cam c .tapGate) value.toInt).setLink c
          { loaded (s.camParams c).tapOverride with updatePending := false }).replied u node (.cam c .tapGate)
            value.toInt))) ∧
    ((s.camParams c).tapGate = false ∨ 1 ≤ value.toInt ∨ (s.link c).state ≠ .locked ∨
        (s.link c).updatePending = false →
      exec (.tapGate node c value offered) s = .next (takeHead
        (((u.stored (.cam c .tapGate) value.toInt).setLink c l).replied u node (.cam c .tapGate) value.toInt)))

/-- FRAME_START in LOCKED with no frame being received: the store counts the frame start and allocates the lowest-numbered
FREE slot, or failing that the oldest READY slot that is unpinned and not the newest READY one, begins its record, and the
link receives into it; with neither, the frame is discarded and OVERRUN sent. The tap schedule moves on (R15, R16, R45,
R49, R52–R56). -/
def Obligations.FrameStartBegins : Prop :=
  ∀ (s : State) (c : CamId) (counter : Byte) (offered : Tap), s.held = false → (s.link c).state = .locked →
    (s.link c).progress = .none ∨ (s.link c).progress = .discarding →
    let l := s.link c
    let r := s.ring c
    let p := s.camParams c
    let n := l.framesSinceUpdate + 1
    let seq := (r.seqCounter + 1) % 65536
    let usable (k : SlotId) : Prop :=
      (r.slots.get k).state = .ready ∧ (r.slots.get k).pins = 0 ∧ r.newestReady? ≠ some k
    let begun : Link := { l with
      timerStart := s.timebase, offered := offered, lastFrameCounter := counter, openLine := none
      framesSinceUpdate := if p.tapUpdateFrames ≤ n then 0 else n
      updatePending := l.updatePending || (decide (p.tapUpdateFrames ≤ n) && p.tapGate)
      tap := if p.tapUpdateFrames ≤ n ∧ p.tapGate = false then
        (if 0 ≤ p.tapOverride then BitVec.ofInt 7 p.tapOverride else offered) else l.tap }
    let record : Record :=
      { camera := c, seq := seq, capture := s.timebase
        snapshot := p.phaseSource.chan?.map (fun e =>
          ⟨(s.channel e).position, (s.channel e).lastDir, (s.channel e).period, (s.channel e).state⟩)
        concealed := none, qx := none, q := none, verdict := none, meas := none, phase := none
        prediction := ⟨none, none⟩, shift := none }
    let filled (k : SlotId) : State := { s with
      links := s.links.set c { begun with progress := .receiving k, nextPos := 0, lastGood := none, concealed := 0 }
      rings := s.rings.set c { r with
        seqCounter := seq, received := bump r.received
        slots := r.slots.set k { r.slots.get k with
          state := .filling, record := some record, profiles := ⟨List.replicate 800 0, List.replicate 480 0⟩ }
        order := r.order.filter (· ≠ k) ++ [k] } }
    (∀ k : SlotId, (r.slots.get k).state = .free → (∀ j : SlotId, j.num < k.num → (r.slots.get j).state ≠ .free) →
      exec (.frameStart c counter offered) s = .next (takeHead (filled k))) ∧
    (∀ (k : SlotId) (older newer : List SlotId), (∀ j : SlotId, (r.slots.get j).state ≠ .free) →
      r.order = older ++ k :: newer → (∀ j ∈ older, ¬usable j) → usable k →
      exec (.frameStart c counter offered) s = .next (takeHead (filled k))) ∧
    ((∀ j : SlotId, (r.slots.get j).state ≠ .free) → (∀ j ∈ r.order, ¬usable j) →
      exec (.frameStart c counter offered) s = .next (takeHead { s with
        links := s.links.set c { begun with progress := .discarding }
        rings := s.rings.set c { r with
          seqCounter := seq, received := bump r.received, overruns := bump r.overruns }
        mi := s.mi.place (.faultNotice .overrun c.num (bump r.overruns)) }))

/-- A frame ends malformed by a FRAME_END with more than CONCEAL_LIMIT lines concealed or position 479 not settled, and
always by a FRAME_START, which then begins the next frame; at the third malformed frame in a row the link leaves LOCKED
and that FRAME_START begins nothing. A FRAME_END applies a pending tap update, also the one at which the link leaves LOCKED
(R15, R16, R19, R20, R58). Read from the spec by inference: that FRAME_START's frame counter is not kept (log entry 20), and
that a link which leaves LOCKED by a FRAME_START is no longer update-pending (log entry 21). -/
def Obligations.MalformedFrameEnds : Prop :=
  ∀ (s : State) (c : CamId) (k : SlotId) (counter : Byte) (offered : Tap), s.held = false →
    (s.link c).state = .locked → (s.link c).progress = .receiving k → (s.ring c).filling? = some k →
    let v := s.atFrameEnd c k offered
    let p := s.camParams c
    let cutShort := p.concealLimit < (v.link c).concealed + (480 - (v.link c).nextPos) ∨ (v.link c).nextPos < 480
    let t := v.malformedFrame c k
    (cutShort → (s.link c).consecMalformed < 2 → (s.link c).updatePending = false →
      exec (.frameEnd c offered) s = .next (takeHead t)) ∧
    (cutShort → (s.link c).consecMalformed < 2 → (s.link c).updatePending = true →
      exec (.frameEnd c offered) s = .next (takeHead (t.setLink c { t.link c with
        tap := if 0 ≤ p.tapOverride then BitVec.ofInt 7 p.tapOverride else offered, updatePending := false }))) ∧
    ((s.link c).consecMalformed < 2 →
      exec (.frameStart c counter offered) s = exec (.frameStart c counter offered) t) ∧
    (cutShort → (s.link c).consecMalformed = 2 → (∀ j : SlotId, j ≠ k → (s.slot c j).state ≠ .filling) →
      ((s.link c).updatePending = false →
        exec (.frameEnd c offered) s = .next (takeHead (v.thirdMalformed c k))) ∧
      ((s.link c).updatePending = true → exec (.frameEnd c offered) s =
        .next (takeHead ((v.thirdMalformed c k).setLink c { (v.thirdMalformed c k).link c with
          tap := if 0 ≤ p.tapOverride then BitVec.ofInt 7 p.tapOverride else offered })))) ∧
    ((s.link c).consecMalformed = 2 → (∀ j : SlotId, j ≠ k → (s.slot c j).state ≠ .filling) →
      exec (.frameStart c counter offered) s = .next (takeHead (v.thirdMalformed c k)))

/-- A FRAME_END that ends a well-formed frame: the screen judges the frame's Q, by seeding, by the ratio test, by
rejection while rejected-run is below HOLD_LIMIT, or by forcing; a rejected frame's slot is freed, every other enters
SCORED and its job is handed over; the link's consecutive-malformed count is 0 and a pending tap update is applied. A
FRAME_END with no frame, or closing a discarded one, does only that last (R15, R16, R19, R20, R59, R60, R70, R73–R77). -/
def Obligations.WellFormedFrameEnds : Prop :=
  ∀ (s : State) (c : CamId) (k : SlotId) (offered : Tap), s.held = false → (s.link c).state = .locked →
    let v := s.atFrameEnd c k offered
    let p := s.camParams c
    let sc := s.screen c
    let q := (v.slot c k).q
    let passes := sc.clearRef * p.acceptRatio ≤ q * 256
    let updated (l : Link) : Link := { l with
      progress := .none
      tap := if l.updatePending then
        (if 0 ≤ p.tapOverride then BitVec.ofInt 7 p.tapOverride else offered) else l.tap
      updatePending := false }
    let judged (sc' : Screen) : State := { v with
      links := v.links.set c { updated (v.link c) with consecMalformed := 0 }
      screens := s.screens.set c sc' }
    let scored (w : State) (forced : Nat) (vd : Verdict) : State := State.handOff { w with
      rings := w.rings.set c { w.ring c with
        forced := forced
        slots := (w.ring c).slots.set k { w.slot c k with
          state := .scored
          record := (w.slot c k).record.map (fun r => { r with
            concealed := some (v.link c).concealed, qx := some (v.slot c k).qx, q := some q, verdict := some vd }) } } }
      ⟨c, k⟩
    ((s.link c).progress = .receiving k → (s.ring c).filling? = some k →
      (v.link c).concealed ≤ p.concealLimit → 480 ≤ (v.link c).nextPos →
      (sc.clearRef = 0 → exec (.frameEnd c offered) s =
        .next (takeHead (scored (judged ⟨q, 0, q, .accepted⟩) (v.ring c).forced .accepted))) ∧
      (sc.clearRef ≠ 0 → passes → exec (.frameEnd c offered) s =
        .next (takeHead (scored
          (judged ⟨((sc.clearRef : Int) + ((q : Int) - sc.clearRef) / 16).toNat, 0, q, .accepted⟩)
          (v.ring c).forced .accepted))) ∧
      (sc.clearRef ≠ 0 → ¬passes → sc.rejectedRun < p.holdLimit → exec (.frameEnd c offered) s =
        .next (takeHead { judged ⟨sc.clearRef, sc.rejectedRun + 1, q, .rejected⟩ with
          rings := v.rings.set c { v.ring c with
            slots := (v.ring c).slots.set k { v.slot c k with state := .free, record := none }
            order := (v.ring c).order.filter (· ≠ k)
            rejected := bump (v.ring c).rejected } })) ∧
      (sc.clearRef ≠ 0 → ¬passes → p.holdLimit ≤ sc.rejectedRun → exec (.frameEnd c offered) s =
        .next (takeHead (scored (judged ⟨q, 0, q, .forced⟩) (bump (v.ring c).forced) .forced)))) ∧
    ((s.link c).progress = .none ∨ (s.link c).progress = .discarding → (s.link c).openLine = none →
      exec (.frameEnd c offered) s = .next (takeHead (s.setLink c
        (updated { s.link c with timerStart := s.timebase, offered := offered }))))

/-- LINE_START in LOCKED while a frame is received into slot `k`: a line still open is settled as bad; then, at next
position p, a line numbered p opens, a later line up to 479 opens after every position before it is concealed, any other
opens marked bad, and with p = 480 none opens. With no frame, or one discarded, the marker restarts the signal-loss timer
alone (R9, R17, R18). -/
def Obligations.LineStartOpens : Prop :=
  ∀ (s : State) (c : CamId) (k : SlotId) (number : Word), s.held = false → (s.link c).state = .locked →
    let u := s.setLink c { s.link c with timerStart := s.timebase }
    let v := if (s.link c).openLine = none then u
      else (u.conceal c k).setLink c { (u.conceal c k).link c with openLine := none }
    let l := v.link c
    let n := number.toNat
    let opened (bad : Bool) : Option OpenLine := some ⟨n, 0, 0xFFFF#16, bad, [], false⟩
    ((s.link c).progress = .receiving k →
      (480 ≤ l.nextPos → exec (.lineStart c number) s = .next (takeHead v)) ∧
      (l.nextPos < 480 → n = l.nextPos →
        exec (.lineStart c number) s = .next (takeHead (v.setLink c { l with openLine := opened false }))) ∧
      (l.nextPos < 480 → n < l.nextPos ∨ 479 < n →
        exec (.lineStart c number) s = .next (takeHead (v.setLink c { l with openLine := opened true }))) ∧
      (l.nextPos < n → n ≤ 479 →
        exec (.lineStart c number) s = .next (takeHead (((fun w => w.conceal c k)^[n - l.nextPos] v).setLink c { l with
          nextPos := n, concealed := l.concealed + (n - l.nextPos), openLine := opened false })))) ∧
    ((s.link c).progress = .none ∨ (s.link c).progress = .discarding →
      exec (.lineStart c number) s = .next (takeHead u))

/-- Lines in LOCKED. PIXEL_WORD: the open line counts, checks and holds the word, and is bad beyond 800; with no line
open the word is discarded, and so it is after a WORD_CLOCK, a control word that is no marker, which leaves the signal-loss
timer alone. The check is the CRC by x^16 + x^12 + x^5 + 1, each word from bit 15 to bit 0. LINE_END while a frame is
received into slot `k`: a line that is not bad, has 800 words, the right check and the next position's number is written
there and becomes the last good one; any other is concealed by the last good row, or black, and counted; either row enters
the profiles; with no line open, or no frame being received, the marker restarts the signal-loss timer alone (R2, R3, R9,
R18, R21). Read from the spec by inference: that a WORD_CLOCK in LOCKED is such a control word, after which data words are
discarded (log entry 6); and presumed, that what tells the words apart stands before the commands (log entry 16). -/
def Obligations.LinesSettle : Prop :=
  (∀ (s : State) (c : CamId) (k : SlotId) (o : OpenLine) (word check : Word), s.held = false →
    (s.link c).state = .locked →
    let l := s.link c
    let holding (o' : OpenLine) := Host.Outcome.next (φ := Fault) (ρ := Refusal)
      (takeHead (s.setLink c { l with openLine := some o' }))
    let settled (row : List Word) (l' : Link) : State := { s with
      links := s.links.set c { l' with timerStart := s.timebase, openLine := none, nextPos := l.nextPos + 1 }
      rings := s.rings.set c { s.ring c with
        slots := (s.ring c).slots.set k { s.slot c k with
          pixels := RowStore.write (s.slot c k).pixels 800 l.nextPos row
          profiles :=
            { x := if 80 ≤ l.nextPos ∧ l.nextPos ≤ 399 then
                List.zipWith (· + ·) (s.slot c k).profiles.x (row.map luma) else (s.slot c k).profiles.x
              y := (s.slot c k).profiles.y.set l.nextPos (((row.drop 80).take 640).map luma).sum } } } }
    let isGood := o.bad = false ∧ o.count = 800 ∧ o.crc = check ∧ o.number = l.nextPos
    (l.openLine = some o → o.skipping = false → o.count < 800 → exec (.pixelWord c word) s =
      holding { o with count := o.count + 1, crc := crcWord o.crc word, buffer := o.buffer ++ [word] }) ∧
    (l.openLine = some o → o.skipping = false → 800 ≤ o.count →
      exec (.pixelWord c word) s = holding { o with bad := true }) ∧
    (l.openLine = some o → exec (.wordClock c) s = holding { o with skipping := true }) ∧
    (l.openLine = some o → o.skipping = true → exec (.pixelWord c word) s = .next (takeHead s)) ∧
    (l.openLine = none →
      exec (.pixelWord c word) s = .next (takeHead s) ∧ exec (.wordClock c) s = .next (takeHead s)) ∧
    (l.progress = .receiving k → l.openLine = some o → isGood → exec (.lineEnd c check) s =
      .next (takeHead (settled o.buffer { l with lastGood := some l.nextPos }))) ∧
    (l.progress = .receiving k → l.openLine = some o → ¬isGood → exec (.lineEnd c check) s =
      .next (takeHead (settled (l.lastGood.elim (List.replicate 800 0x1080#16)
        (fun g => RowStore.read (s.slot c k).pixels 800 g)) { l with concealed := l.concealed + 1 }))) ∧
    (l.openLine = none ∨ l.progress = .none ∨ l.progress = .discarding → exec (.lineEnd c check) s =
      .next (takeHead (s.setLink c { l with timerStart := s.timebase })))) ∧
  (∀ (crc w : Word) (bit : Bool),
    (∀ i, i < 16 → (crcBit crc bit).getLsbD i =
      ((decide (0 < i) && crc.getLsbD (i - 1)) ^^ (decide (i = 0 ∨ i = 5 ∨ i = 12) && (crc.getLsbD 15 ^^ bit)))) ∧
    crcWord crc w = [15, 14, 13, 12, 11, 10, 9, 8, 7, 6, 5, 4, 3, 2, 1, 0].foldl (fun r i => crcBit r (w.getLsbD i)) crc ∧
    luma w = (w.extractLsb' 8 8).toNat) ∧
  ∀ (m : RowStore) (y z : Nat) (row : List Word), RowStore.wf 800 m = true →
    RowStore.read (RowStore.write m 800 y row) 800 z = if z = y then row else RowStore.read m 800 z

/-! ### Registration and phase tables -/

/-- Jobs start and wait. An idle engine starts its oldest waiting job: it takes the phase, the prediction, the context and
the search parameters, writes phase and prediction into the record and the phase into the table, and clears the
reference-lost mark. A job handed over to a busy engine waits at the tail; a waiting job of the same camera is withdrawn
first, its slot READY unmeasured with the prediction, or last S, as its shift (R60, R61, R85, R87, R89, R109). That
a withdrawal sets the table's last phase, as R109 and R127 have it, where R61 writes nothing to the table, is read from the spec
by inference (log entry 37). -/
def Obligations.JobsStartAndWait : Prop :=
  ∀ (s : State) (c : CamId) (k : SlotId) (r : Record), (s.slot c k).record = some r →
    let info := s.derivePhase c r.snapshot
    let pred := s.predict c info
    let x := s.context c
    let p := s.camParams c
    let noted (r' : Record) : Record := { r' with phase := info.map (·.phase), prediction := pred }
    let tables := s.tables.set c { s.table c with lastPhase := info }
    let started (queue : List Job) : State := { s with
      rings := s.rings.set c { s.ring c with
        slots := (s.ring c).slots.set k { s.slot c k with record := some (noted r) } }
      tables := tables
      contexts := s.contexts.set c { x with refLost := false }
      engine := {
        running := some {
          job := ⟨c, k⟩, phase := info, prediction := pred, reference := x.reference, refOff := x.refOff
          drift := x.drift, lastS := x.lastS, searchR := ⟨p.searchRx, p.searchRy⟩, matchRatio := p.matchRatio }
        queue := queue } }
    (∀ rest : List Job, s.engine = ⟨none, ⟨c, k⟩ :: rest⟩ → s.startNext = started rest) ∧
    (s.engine = ⟨none, []⟩ → s.handOff ⟨c, k⟩ = started [] ∧ s.startNext = s) ∧
    (∀ (j : RunningJob) (queue : List Job) (new : SlotId), s.engine = ⟨some j, queue⟩ → (∀ q ∈ queue, q.cam ≠ c) →
      s.handOff ⟨c, new⟩ = { s with engine := ⟨some j, queue ++ [⟨c, new⟩]⟩ }) ∧
    (∀ (j : RunningJob) (pre post : List Job) (new : SlotId), s.engine = ⟨some j, pre ++ ⟨c, k⟩ :: post⟩ →
      (∀ q ∈ pre ++ post, q.cam ≠ c) →
      s.handOff ⟨c, new⟩ = { s with
        rings := s.rings.set c { s.ring c with
          superseded := bump (s.ring c).superseded
          slots := (s.ring c).slots.set k { s.slot c k with
            state := .ready
            record := some { noted r with
              meas := some ⟨⟨.notRun, none⟩, ⟨.notRun, none⟩⟩
              shift := some ⟨pred.x.getD x.lastS.x, pred.y.getD x.lastS.y⟩ } } }
        tables := tables
        engine := ⟨some j, pre ++ post ++ [⟨c, new⟩]⟩ })

/-- JOB_COMPLETION with a job running: the record takes each axis's result, its best displacement and its shift S; the
context takes the Drift of each VALID axis, S and the results; then the frame becomes the reference, when the job had none
or a refresh is due, or the run counts move, and neither with the reference-lost mark set; the table learns, the slot is
READY, and the next job starts (R62, R92, R94–R100, R103, R104). With no job running nothing happens. -/
def Obligations.JobCompletes : Prop :=
  ∀ (s : State) (j : RunningJob) (r : Record), s.held = false →
    let c := j.job.cam
    let k := s.slot c j.job.slot
    let x := s.context c
    let p := s.camParams c
    let detail (ax : Axis) : Nat := match ax with | .x => r.qx.getD 0 | .y => r.q.getD 0 - r.qx.getD 0
    let measure (ax : Axis) : AxisMeas := j.reference.elim ⟨.reference, none⟩ (fun ref =>
      let best := j.best ax (k.profiles.get ax) (ref.get ax)
      ⟨if best.1 = j.lo ax ∨ best.1 = j.hi ax then .edge
        else if detail ax * j.matchRatio < best.2 * 256 then .poor else .valid, some best.1⟩)
    let m (ax : Axis) : Int := 16 * ((measure ax).d.getD 0 + j.refOff.get ax)
    let newDrift (ax : Axis) : Int := j.drift.get ax + (m ax - j.drift.get ax) / 2 ^ p.driftShift
    let sOf (ax : Axis) : Int :=
      if (measure ax).result = .valid then clamp (m ax - newDrift ax) (-(16 * axisBound ax)) (16 * axisBound ax)
      else if j.reference = none then (j.prediction.get ax).getD 0
      else (j.prediction.get ax).getD (j.lastS.get ax)
    let meas : XY AxisMeas := ⟨measure .x, measure .y⟩
    let sh : XY Int := ⟨sOf .x, sOf .y⟩
    let count (res : AxisResult) : Nat :=
      (if (measure .x).result = res then 1 else 0) + (if (measure .y).result = res then 1 else 0)
    let drift (ax : Axis) : Int := if (measure ax).result = .valid then newDrift ax else x.drift.get ax
    let x1 : Context := { x with
      drift := ⟨drift .x, drift .y⟩
      lastS := sh
      lastResult := some ⟨(measure .x).result, (measure .y).result⟩
      jobs := bump x.jobs
      edges := min (x.edges + count .edge) 65535
      poors := min (x.poors + count .poor) 65535 }
    let validRun := if count .valid = 2 then min (x.validRun + 1) 250 else x.validRun
    let invalidRun := if count .valid = 2 then 0 else min (x.invalidRun + 1) 4
    let refreshed : Context := { x1 with
      reference := some k.profiles
      refOff := ⟨nearest sh.x 16, nearest sh.y 16⟩
      drift := ⟨16 * nearest sh.x 16 - sh.x, 16 * nearest sh.y 16 - sh.y⟩
      validRun := 0, invalidRun := 0, refreshPending := false, refreshes := bump x.refreshes }
    let refreshDue := x.refreshPending = true ∨ p.refreshCount ≤ validRun ∨ invalidRun = 4
    let done (x' : Context) : State := { s with
      contexts := s.contexts.set c x'
      tables := s.tables.set c ((s.table c).learn j.phase p.outlierLimit p.learnShift meas sh)
      rings := s.rings.set c { s.ring c with
        slots := (s.ring c).slots.set j.job.slot { k with
          state := .ready, record := some { r with meas := some meas, shift := some sh } } }
      engine := ⟨none, s.engine.queue⟩ }
    (s.engine.running = none → exec .jobCompletion s = .next (takeHead s)) ∧
    (s.engine.running = some j → k.record = some r →
      (x.refLost = true → exec .jobCompletion s = .next (takeHead (done x1).startNext)) ∧
      (x.refLost = false → j.reference = none ∨ refreshDue →
        exec .jobCompletion s = .next (takeHead (done refreshed).startNext)) ∧
      (x.refLost = false → j.reference ≠ none → ¬refreshDue → exec .jobCompletion s =
        .next (takeHead (done { x1 with validRun := validRun, invalidRun := invalidRun }).startNext)))

/-- The search of an axis: the centre is nearest((Pc + Drift) / 16) − RefOff, clamped to the bound B; the range is centre ±
R within the bound; the best displacement lies in the range, no candidate has a smaller SAD, none of equal SAD is nearer
the centre, and none as near is smaller. The measures are sums: SADx(d) over x = 48 … 751 of |C[x + d] − Cref[x]|, SADy(d)
over y = 32 … 447 of |Rw[y + d] − Rref[y]|, Qx over x = 48 … 750 of |C[x + 1] − C[x]|, and Qy over y = 32 … 446 of |Rw[y + 1]
− Rw[y]|, for profiles of 800 and 480 entries (R71, R72, R90, R91). -/
def Obligations.BestDisplacementsAndMeasures : Prop :=
  (∀ (j : RunningJob) (ax : Axis) (frame ref : List Nat),
     let centre := clamp (nearest ((j.prediction.get ax).getD (j.lastS.get ax) + j.drift.get ax) 16 - j.refOff.get ax)
       (-axisBound ax) (axisBound ax)
     let lo := max (centre - j.searchR.get ax) (-axisBound ax)
     let hi := min (centre + j.searchR.get ax) (axisBound ax)
     let best := (j.best ax frame ref).1
     (j.lo ax = lo ∧ j.hi ax = hi ∧ lo ≤ centre ∧ centre ≤ hi) ∧ lo ≤ best ∧ best ≤ hi ∧
       (j.best ax frame ref).2 = sad ax frame ref best ∧
       ∀ d : Int, lo ≤ d → d ≤ hi →
         sad ax frame ref best < sad ax frame ref d ∨
           (sad ax frame ref best = sad ax frame ref d ∧
             (|best - centre| < |d - centre| ∨ (|best - centre| = |d - centre| ∧ best ≤ d)))) ∧
  (∀ (c ref : List Nat) (d : Int), c.length = 800 → ref.length = 800 → -48 ≤ d → d ≤ 48 →
    (sad .x c ref d : Int) = ∑ x ∈ Finset.Icc (48 : Nat) 751, |(c.getD ((x : Int) + d).toNat 0 : Int) - ref.getD x 0|) ∧
  (∀ (c ref : List Nat) (d : Int), c.length = 480 → ref.length = 480 → -32 ≤ d → d ≤ 32 →
    (sad .y c ref d : Int) = ∑ y ∈ Finset.Icc (32 : Nat) 447, |(c.getD ((y : Int) + d).toNat 0 : Int) - ref.getD y 0|) ∧
  ∀ k : Slot, k.profiles.x.length = 800 → k.profiles.y.length = 480 →
    (k.qx : Int) = ∑ x ∈ Finset.Icc (48 : Nat) 750, |(k.profiles.x.getD (x + 1) 0 : Int) - k.profiles.x.getD x 0| ∧
    (k.q : Int) = k.qx + ∑ y ∈ Finset.Icc (32 : Nat) 446, |(k.profiles.y.getD (y + 1) 0 : Int) - k.profiles.y.getD y 0|

/-- Learning teaches bin bn on each axis with result VALID, with V the axis's S: an outlier (confidence at least 8 and
|V − T| above the limit) lowers the confidence by 2 down to 0 and is counted; otherwise T becomes V at confidence 0 and
T + floor((V − T) / 2^min(confidence, LEARN_SHIFT)) above, the confidence rises by 1 up to 15, and the learning is counted.
Every other bin and axis, and with no valid phase the whole table, stays (R118–R121, R126). -/
def Obligations.TablesLearn : Prop :=
  ∀ (t : PhaseTable) (i : PhaseInfo) (limit shift : Nat) (meas : XY AxisMeas) (sh : XY Int),
    t.learn none limit shift meas sh = t ∧
    (t.bins.length = 32 → i.bn < 32 →
      let t' := t.learn (some i) limit shift meas sh
      let old (ax : Axis) : Int := (t.bin i.bn).value.get ax
      let conf (ax : Axis) : Nat := (t.bin i.bn).conf.get ax
      let taught (ax : Axis) : Prop := (meas.get ax).result = .valid
      let outlier (ax : Axis) : Prop := 8 ≤ conf ax ∧ (limit : Int) < |sh.get ax - old ax|
      (∀ ax, taught ax → outlier ax →
        (t'.bin i.bn).value.get ax = old ax ∧ (t'.bin i.bn).conf.get ax = max (conf ax - 2) 0) ∧
      (∀ ax, taught ax → ¬outlier ax →
        (t'.bin i.bn).value.get ax = (if conf ax = 0 then sh.get ax
          else old ax + (sh.get ax - old ax) / 2 ^ min (conf ax) shift) ∧
        (t'.bin i.bn).conf.get ax = min (conf ax + 1) 15) ∧
      (∀ ax, ¬taught ax → (t'.bin i.bn).value.get ax = old ax ∧ (t'.bin i.bn).conf.get ax = conf ax) ∧
      (∀ n, n ≠ i.bn → t'.bin n = t.bin n) ∧ t'.bins.length = 32 ∧ t'.lastPhase = t.lastPhase ∧
      t'.clearCount = t.clearCount ∧
      ((taught .x ∧ outlier .x) → (taught .y ∧ outlier .y) →
        t'.outlierCount = bump (bump t.outlierCount) ∧ t'.learnCount = t.learnCount) ∧
      ((taught .x ∧ ¬outlier .x) → (taught .y ∧ ¬outlier .y) →
        t'.learnCount = bump (bump t.learnCount) ∧ t'.outlierCount = t.outlierCount) ∧
      ((taught .x ∧ outlier .x ∧ taught .y ∧ ¬outlier .y) ∨ (taught .x ∧ ¬outlier .x ∧ taught .y ∧ outlier .y) →
        t'.learnCount = bump t.learnCount ∧ t'.outlierCount = bump t.outlierCount) ∧
      ((taught .x ∧ ¬outlier .x ∧ ¬taught .y) ∨ (¬taught .x ∧ taught .y ∧ ¬outlier .y) →
        t'.learnCount = bump t.learnCount ∧ t'.outlierCount = t.outlierCount) ∧
      ((taught .x ∧ outlier .x ∧ ¬taught .y) ∨ (¬taught .x ∧ taught .y ∧ outlier .y) →
        t'.learnCount = t.learnCount ∧ t'.outlierCount = bump t.outlierCount) ∧
      (¬taught .x → ¬taught .y → t'.learnCount = t.learnCount ∧ t'.outlierCount = t.outlierCount))

/-- A frame's phase is valid exactly with a snapshot of a RUNNING channel, a bound channel and that channel MODULAR; it is
then (position + lead) modulo CPR with lead nearest(EXPOSURE_DELAY × CPR / T_rev), negated when turning DOWN, and gives
bins b0, b1 and bn, bn being b0 when f is below 8 and b1 otherwise. The prediction of an axis interpolates b0 and b1 where
both are trusted, takes the one that is, and is absent with neither or with no valid phase (R109–R116). -/
def Obligations.PhasesAndPredictions : Prop :=
  ∀ (s : State) (c : CamId) (snap : Option Snapshot),
    (∀ (e : ChanId) (sn : Snapshot) (period : Nat), (s.camParams c).phaseSource.chan? = some e → snap = some sn →
      sn.period = some period → sn.state = .running → (s.chanParams e).mode = .modular → 0 < (s.chanParams e).cpr →
      let cpr := (s.chanParams e).cpr
      let lead := nearest ((s.camParams c).exposureDelay * cpr) period
      let phase := ((sn.position + (match sn.dir with | .up => lead | .down => -lead)) % (cpr : Int)).toNat
      let b0 := phase * 32 / cpr
      let f := phase * 512 / cpr % 16
      ∃ bn : Nat, s.derivePhase c snap = some ⟨phase, b0, (b0 + 1) % 32, bn⟩ ∧ phase < cpr ∧ b0 < 32 ∧
        bn = (nearest (phase * 32) cpr).toNat % 32 ∧ bn = (if f < 8 then b0 else (b0 + 1) % 32)) ∧
    ((snap = none ∨ (s.camParams c).phaseSource = .none ∨
        (∃ sn, snap = some sn ∧ (sn.state ≠ .running ∨ sn.period = none)) ∨
        ∃ e, (s.camParams c).phaseSource.chan? = some e ∧ (s.chanParams e).mode = .linear) →
      s.derivePhase c snap = none) ∧
    s.predict c none = ⟨none, none⟩ ∧
    ∀ (e : ChanId) (i : PhaseInfo) (ax : Axis), (s.camParams c).phaseSource.chan? = some e →
      let bin (n : Nat) : Bin := (s.table c).bins.getD n ⟨⟨0, 0⟩, ⟨0, 0⟩⟩
      let t0 := (bin i.b0).value.get ax
      let t1 := (bin i.b1).value.get ax
      let trust0 := (s.camParams c).minConf ≤ (bin i.b0).conf.get ax
      let trust1 := (s.camParams c).minConf ≤ (bin i.b1).conf.get ax
      let f : Nat := i.phase * 512 / (s.chanParams e).cpr % 16
      (trust0 → trust1 → (s.predict c (some i)).get ax = some (t0 + (t1 - t0) * f / 16)) ∧
      (trust0 → ¬trust1 → (s.predict c (some i)).get ax = some t0) ∧
      (¬trust0 → trust1 → (s.predict c (some i)).get ax = some t1) ∧
      (¬trust0 → ¬trust1 → (s.predict c (some i)).get ax = none)

/-! ### Commands and the soft reset -/

/-- Each camera, encoder and soft-reset command is the COMMAND message to its target with its own bit set beside the other
bits it came with: LINK-RESET 0, REF-REFRESH 1, TABLE-CLEAR 2, FORCE-TAP-UPDATE 3 and CLEAR-COUNTS 4 of a camera, targets
0–3; CLEAR-POSITION 0, ARM-INDEX 1, RELEASE-CAPTURE 2 and CLEAR-COUNTS 3 of an encoder channel, targets 8–10 (R190). The model's
choices: a row carries the whole field of command bits, its own bit set (log entry 8); and SOFT_RESET, bit 0 of the device,
target 15, is the COMMAND alone where its operand says that the buffered frame has not begun (log entry 12), off BUS_OFF,
in which COMMAND does nothing (log entry 32). -/
def Obligations.CommandRowsAreMessages : Prop :=
  ∀ (s : State) (node : Byte) (c : CamId) (e : ChanId) (bits : Word) (offered : Tap),
    let cam := byteOf c.num 0
    let enc := byteOf (8 + e.num) 0
    exec (.linkReset node c bits) s = exec (.command node cam (bits ||| 1)) s ∧
    exec (.refRefresh node c bits) s = exec (.command node cam (bits ||| 2)) s ∧
    exec (.tableClear node c bits) s = exec (.command node cam (bits ||| 4)) s ∧
    (s.held = false → s.mi.onBus = true → exec (.forceTapUpdate node c bits offered) s =
      exec (.command node cam (bits ||| 8)) (s.setLink c { s.link c with offered := offered })) ∧
    exec (.clearCounts node c bits) s = exec (.command node cam (bits ||| 16)) s ∧
    exec (.clearPosition node e bits) s = exec (.command node enc (bits ||| 1)) s ∧
    exec (.armIndex node e bits) s = exec (.command node enc (bits ||| 2)) s ∧
    exec (.releaseCapture node e bits) s = exec (.command node enc (bits ||| 4)) s ∧
    exec (.clearCountsEncoder node e bits) s = exec (.command node enc (bits ||| 8)) s ∧
    (s.mi.busState ≠ .busOff → exec (.softReset node bits false) s = exec (.command node 15 (bits ||| 1)) s)

/-- Camera commands: REF-REFRESH sets refresh-pending, TABLE-CLEAR empties the table and counts the clear, CLEAR-COUNTS sets
the camera's link, store, engine and table counts to 0, each answered OK; several bits of one message act in the order of
their numbers, and bits without a command do nothing (R22, R65, R101, R104, R123, R126, R190). -/
def Obligations.CameraCommandsAct : Prop :=
  ∀ (s : State) (node : Byte) (k : ReqSlot) (c : CamId) (bits : Word), s.Hears node k →
    let u := s.heard k
    let ok := Message.requestResult node (byteOf c.num 0) .command .ok
    let refresh (w : State) : State :=
      { w with contexts := w.contexts.set c { w.context c with refreshPending := true } }
    let clearTable (w : State) : State :=
      { w with tables := w.tables.set c { w.table c with
        bins := List.replicate 32 ⟨⟨0, 0⟩, ⟨0, 0⟩⟩, lastPhase := none, clearCount := bump (w.table c).clearCount } }
    let clearCounts (w : State) : State :=
      { w with
        links := w.links.set c { w.link c with lossCount := 0, failureCount := 0, malformedRunCount := 0 }
        rings := w.rings.set c { w.ring c with
          received := 0, malformed := 0, rejected := 0, forced := 0, overruns := 0, superseded := 0, aborted := 0 }
        contexts := w.contexts.set c { w.context c with jobs := 0, edges := 0, poors := 0, refreshes := 0 }
        tables := w.tables.set c { w.table c with learnCount := 0, outlierCount := 0, clearCount := 0 } }
    let acts (i : Nat) (f : State → State) (w : State) : State := if bits.getLsbD i then f w else w
    exec (.refRefresh node c 0) s = .next (takeHead ((refresh u).ask ok)) ∧
    exec (.tableClear node c 0) s = .next (takeHead ((clearTable u).ask ok)) ∧
    exec (.clearCounts node c 0) s = .next (takeHead ((clearCounts u).ask ok)) ∧
    exec (.command node (byteOf c.num 0) bits) s = .next (takeHead ((acts 4 clearCounts (acts 3 (·.forceTapUpdate c)
      (acts 2 clearTable (acts 1 refresh (acts 0 (·.linkReset c) u))))).ask ok))

/-- Encoder commands, in any channel state: CLEAR-POSITION sets the position to 0 or, with CLEAR_MODE = RELOAD, to the
index value, after which a HOMED LINEAR channel evaluates its auger state; ARM-INDEX arms; RELEASE-CAPTURE clears the held
flag; CLEAR-COUNTS sets the five counts to 0; each is answered OK, and several act in the order of their bits (R39, R41,
R42, R43, R190). -/
def Obligations.EncoderCommandsAct : Prop :=
  ∀ (s : State) (node : Byte) (k : ReqSlot) (e : ChanId) (bits : Word), s.Hears node k →
    let u := s.heard k
    let p := s.chanParams e
    let ok := Message.requestResult node (byteOf (8 + e.num) 0) .command .ok
    let target : Int := if p.clearReload then
      (match p.mode with | .modular => p.indexValue % (p.cpr : Int) | .linear => p.indexValue) else 0
    let auger (now : AugerState) : AugerState := match now with
      | .inside => if p.outThreshold ≤ target then .outside else .inside
      | .outside => if target ≤ p.inThreshold then .inside else .outside
      | .unknown => if p.outThreshold ≤ target then .outside else .inside
    let cleared (ch : Channel) : Channel := { ch with
      position := target
      auger := if p.mode = .linear ∧ ch.state = .homed then auger ch.auger else ch.auger }
    let arm (w : State) : State := { w with channels := w.channels.set e { w.channel e with armed := true } }
    let release (w : State) : State := { w with channels := w.channels.set e { w.channel e with captureHeld := false } }
    let clearCounts (w : State) : State := { w with channels := w.channels.set e { w.channel e with
      slipCount := 0, quadErrorCount := 0, glitchCount := 0, saturationCount := 0, stopCount := 0 } }
    let clear (w : State) : State := w.changeChannel e (cleared (w.channel e))
    let acts (i : Nat) (f : State → State) (w : State) : State := if bits.getLsbD i then f w else w
    exec (.clearPosition node e 0) s = .next (takeHead ((clear u).ask ok)) ∧
    exec (.armIndex node e 0) s = .next (takeHead ((arm u).ask ok)) ∧
    exec (.releaseCapture node e 0) s = .next (takeHead ((release u).ask ok)) ∧
    exec (.clearCountsEncoder node e 0) s = .next (takeHead ((clearCounts u).ask ok)) ∧
    exec (.command node (byteOf (8 + e.num) 0) bits) s = .next (takeHead ((acts 3 clearCounts (acts 2 release
      (acts 1 arm (acts 0 clear u)))).ask ok))

/-- SOFT_RESET: parameters, channels and phase tables stay; each link goes to ACQUIRE or DOWN by its LINK_ENABLE; every slot
is FREE and unpinned; screens and contexts are fresh and no job, copy, still or request is left, but for the auger entry
made anew while channel 2 is OUT and AUGER_PRIORITY above 0; outputs show the live default view, blanked until their next
frame start; the queue is emptied, the buffered frame withdrawn unless it is on the bus, and then the OK answer and both
VIEW STATUS queued (R12, R47, R67, R83, R106, R128, R149, R172, R185, R191, R210). In BUS_OFF, which it does not end, it does
the same, its message having been received before (R201; log entry 32); an unknown node is answered UNKNOWN_REQUESTER. The
blocks take their parts in the model's order, by which the drop count is kept (log entry 11), the auger's grant is handed over
for the next frame start (log entry 35), and the invalid stills read black (log entry 13). -/
def Obligations.SoftResetState : Prop :=
  (∀ (s : State) (node : Byte) (bits : Word) (underWay : Bool), s.held = false → s.mi.busState = .busOff →
    s.matchNode node = none → exec (.softReset node bits underWay) s =
      .next (takeHead (s.ask (.requestResult node 15 .command .unknownRequester)))) ∧
  ∀ (s u : State) (node : Byte) (k : ReqSlot) (bits : Word) (underWay : Bool),
    (s.Hears node k ∧ u = s.heard k) ∨ (s.held = false ∧ s.mi.busState = .busOff ∧ s.matchNode node = some k ∧ u = s) →
    ∃ t : State, exec (.softReset node bits underWay) s = .next (takeHead t) ∧
    (t.pending = s.pending ∧ t.held = false ∧ t.timebase = s.timebase ∧ t.setup = s.setup ∧ t.params = s.params ∧
      t.channels = s.channels ∧ t.tables = s.tables ∧ t.engine = ⟨none, []⟩ ∧ t.screens = .same ⟨0, 0, 0, .none⟩) ∧
    (∀ c : CamId, ((s.camParams c).linkEnable = true → t.link c = { s.link c with
        consecMalformed := 0, state := .acquire, attempts := 0, timerStart := s.timebase, refLocked := false
        updatePending := false, progress := .none, openLine := none }) ∧
      ((s.camParams c).linkEnable = false → t.link c = { s.link c with
        consecMalformed := 0, attempts := 0, state := .down, refLocked := false, updatePending := false
        progress := .none, openLine := none })) ∧
    (∀ c : CamId, (∀ j : SlotId, (t.slot c j).state = .free ∧ (t.slot c j).pins = 0 ∧ (t.slot c j).record = none) ∧
      (t.ring c).order = [] ∧ (t.ring c).seqCounter = (s.ring c).seqCounter ∧
      (t.ring c).received = (s.ring c).received ∧
      ((s.ring c).filling? = none → (t.ring c).aborted = (s.ring c).aborted) ∧
      (∀ j : SlotId, (s.ring c).filling? = some j → (∀ i : SlotId, i ≠ j → (s.slot c i).state ≠ .filling) →
        (t.ring c).aborted = bump (s.ring c).aborted)) ∧
    (∀ c : CamId, t.context c = { Context.initial with
      jobs := (s.context c).jobs, edges := (s.context c).edges, poors := (s.context c).poors
      refreshes := (s.context c).refreshes }) ∧
    (∀ o : OutId, (t.output o).frozen = false ∧ (t.output o).mode = .liveView ∧ (t.output o).blanked = true ∧
      (t.output o).win1.slot = none ∧ (t.output o).win2.slot = none ∧ (t.output o).shown = (s.output o).shown ∧
      (t.output o).rasterStart = (s.output o).rasterStart) ∧
    (∀ o : OutId, (t.still o).valid = false ∧ (t.still o).pixels = [] ∧
      (t.still o).completed = (s.still o).completed ∧
      (t.still o).aborted = (s.still o).aborted ∧ (t.still o).cancelled = (s.still o).cancelled) ∧
    t.stillUnit.running = none ∧ t.stillUnit.waiting = [] ∧
    (∀ j : ReqSlot, t.arbiter.lastHeard.get j = none) ∧ t.arbiter.expiryCount = s.arbiter.expiryCount ∧
    (∀ (o : OutId) (j : ReqSlot), t.entry? o (.master j) = none) ∧
    (∀ o : OutId, ¬((s.channel .ec2).auger = .outside ∧ 0 < s.params.augerPriority ∧ o = s.params.augerOutput) →
      t.entry? o .auger = none ∧ t.outGrant o = { s.outGrant o with
        holder := none, dwellRunning := false, candidate := none } ∧ (t.output o).grant = none) ∧
    ((s.channel .ec2).auger = .outside → 0 < s.params.augerPriority →
      (∃ n, t.entry? s.params.augerOutput .auger =
        some ⟨.full s.params.augerCamera, s.params.augerPriority, 0, s.timebase, n⟩) ∧
      (t.outGrant s.params.augerOutput).holder = some .auger ∧
      (t.outGrant s.params.augerOutput).grantCount = bump (s.outGrant s.params.augerOutput).grantCount ∧
      (t.output s.params.augerOutput).grant = some (.full s.params.augerCamera)) ∧
    t.mi.queue = [.requestResult node 15 .command .ok, .viewStatus .a, .viewStatus .b] ∧ t.mi.dropPending = false ∧
    t.mi.txBuffer = (if underWay then u.mi.txBuffer.map (fun f => { f with lastTry := true }) else none) ∧
    t.mi.viewTimer = s.timebase ∧ t.mi.camTimer = s.timebase ∧ t.mi.encTimer = s.timebase ∧ t.mi.camTurn = .cam0 ∧
    t.mi.chanTurn = .ec0 ∧ t.mi.txErrors = u.mi.txErrors ∧
    t.mi.rxErrors = u.mi.rxErrors ∧ t.mi.busState = u.mi.busState ∧
    t.mi.recoveryRuns = u.mi.recoveryRuns ∧ t.mi.dropCount = u.mi.dropCount ∧ t.mi.busOffCount = u.mi.busOffCount

/-- The sender of a message is the lowest-numbered requester slot that stores its node code, none for code 0; a message of
an unknown node changes nothing but the receive error count and is answered UNKNOWN_REQUESTER where its kind has a reply.
From a known node, an output above 1, a camera above 3, an action that is neither 0 nor 1 or a target that does not exist
is answered BAD_FIELD and changes nothing more (R151, R155, R157, R174, R188, R190). -/
def Obligations.RefusedMessages : Prop :=
  ∀ (s : State) (node out a3 a4 a5 a6 : Byte) (hold number bits : Word) (value : BitVec 32),
    (∀ k : ReqSlot, s.matchNode node = some k ↔ node ≠ 0 ∧ s.params.nodeCode.get k = node.toNat ∧
      ∀ j : ReqSlot, j.num < k.num → s.params.nodeCode.get j ≠ node.toNat) ∧
    (s.held = false → s.mi.onBus = true → s.matchNode node = none →
      let u := { s with mi := s.mi.withErrors s.mi.txErrors (s.mi.rxErrors - 1) }
      let unknown (w : What) := Host.Outcome.next (φ := Fault) (ρ := Refusal)
        (takeHead (u.ask (.requestResult node out w .unknownRequester)))
      let noReply := Host.Outcome.next (φ := Fault) (ρ := Refusal)
        (takeHead (u.ask (.paramReply node number .unknownRequester 0)))
      exec (.viewRequest node out a3 a4 a5 a6 hold) s = unknown .request ∧
      exec (.viewRelease node out) s = unknown .release ∧ exec (.freeze node out) s = unknown .freeze ∧
      exec (.unfreeze node out 0) s = unknown .unfreeze ∧ exec (.command node out bits) s = unknown .command ∧
      exec (.paramWrite node number value) s = noReply ∧ exec (.paramRead node number) s = noReply ∧
      exec (.keepalive node) s = .next (takeHead u)) ∧
    ∀ k : ReqSlot, s.Hears node k →
      let bad (w : What) := Host.Outcome.next (φ := Fault) (ρ := Refusal)
        (takeHead ((s.heard k).ask (.requestResult node out w .badField)))
      (2 ≤ out.toNat ∨ 4 ≤ a4.toNat ∨ (a3 = 1 ∧ 4 ≤ a5.toNat) →
        exec (.viewRequest node out a3 a4 a5 a6 hold) s = bad .request) ∧
      (2 ≤ out.toNat → exec (.viewRelease node out) s = bad .release ∧ exec (.freeze node out) s = bad .freeze) ∧
      (2 ≤ out.toNat ∨ 2 ≤ a3.toNat → a3 ≠ 1 → exec (.unfreeze node out a3) s = bad .unfreeze) ∧
      ((4 ≤ out.toNat ∧ out.toNat < 8) ∨ (11 ≤ out.toNat ∧ out.toNat ≠ 15) →
        exec (.command node out bits) s = bad .command)
/-! ### Encoder channels -/

/-- QUADRATURE_EDGE: on a DISABLED channel, or when EDGE does not evaluate the edge, the levels are tracked alone; A and B
changing together count a quadrature error; an evaluated count in last direction is applied; one against it sets the mark,
drops a RUNNING channel to HOMED, and is suppressed by HYSTERESIS. An applied count wraps a MODULAR position within
0 … CPR−1 and saturates a LINEAR one, and a HOMED LINEAR channel evaluates its auger state (R24–R28, R36, R39). -/
def Obligations.QuadratureEdges : Prop :=
  ∀ (s : State) (e : ChanId) (a b : Bool), s.held = false →
    let ch := s.channel e
    let p := s.chanParams e
    let onA : Prop := a ≠ ch.levels.a
    let onB : Prop := b ≠ ch.levels.b
    let evaluated : Prop := p.edge = .x4 ∨ (onA ∧ (p.edge = .x2 ∨ a = true))
    let up : Prop := (onA ∧ a = true ∧ b = false) ∨ (onB ∧ b = true ∧ a = true) ∨ (onA ∧ a = false ∧ b = true) ∨
      (onB ∧ b = false ∧ a = false)
    let tracked : Channel := { ch with levels := { ch.levels with a := a, b := b } }
    (ch.state = .disabled ∨ (¬onA ∧ ¬onB) ∨ (¬(onA ∧ onB) ∧ ¬evaluated) →
      exec (.quadratureEdge e a b) s = .next (takeHead { s with channels := s.channels.set e tracked })) ∧
    (ch.state ≠ .disabled → onA → onB → exec (.quadratureEdge e a b) s = .next (takeHead { s with
      channels := s.channels.set e { tracked with quadErrorCount := bump ch.quadErrorCount } })) ∧
    ∀ d : Dir, ch.state ≠ .disabled → onA ∨ onB → ¬(onA ∧ onB) → evaluated → (d = .up ↔ up) → ch.PositionOk p →
      let against := decide (d ≠ ch.lastDir)
      let suppressed := against && p.hysteresis
      let saturates := decide (p.mode = .linear ∧ ch.position = (if d = .up then 8388607 else -8388608))
      let position : Int := if suppressed || saturates then ch.position
        else if p.mode = .modular ∧ d = .up ∧ ch.position = p.cpr - 1 then 0
        else if p.mode = .modular ∧ d = .down ∧ ch.position = 0 then p.cpr - 1
        else if d = .up then ch.position + 1 else ch.position - 1
      let state : ChanState := if against && decide (ch.state = .running) then .homed else ch.state
      let auger : AugerState := match ch.auger with
        | .outside => if position ≤ p.inThreshold then .inside else .outside
        | _ => if p.outThreshold ≤ position then .outside else .inside
      (p.mode = .modular → 0 ≤ position ∧ position < p.cpr) ∧
      exec (.quadratureEdge e a b) s = .next (takeHead (s.changeChannel e { tracked with
        position := position
        lastDir := d
        dirChange := ch.dirChange || against
        state := state
        period := if against && decide (ch.state = .running) then none else ch.period
        saturationCount := if saturates && !suppressed then bump ch.saturationCount else ch.saturationCount
        auger := if p.mode = .linear ∧ state = .homed then auger else ch.auger }))

/-- INDEX_EDGE: only a rising edge of an enabled channel with INDEX_MODE not OFF is judged; one within MIN_PERIOD of the last
index of a MODULAR channel is a glitch, counted and nothing more; every other is accepted: the capture, the slip check, the
re-zero, the state step with the period test, the new last index time and the auger state, in that order, with ENCODER_SLIP
sent for a slip (R29–R32, R34, R35, R38, R39). That an edge is judged a glitch by R29 in every state, STOPPED included, in
which R37 has none, is read from the spec by inference (log entry 33). -/
def Obligations.IndexEdges : Prop :=
  ∀ (s : State) (e : ChanId) (level : Bool), s.held = false →
    let ch := s.channel e
    let p := s.chanParams e
    let now := s.timebase
    let raised : Channel := { ch with levels := { ch.levels with index := level } }
    let rises : Prop := level = true ∧ ch.levels.index = false
    let glitch : Prop := p.mode = .modular ∧ ∃ t, ch.lastIndex = some t ∧ (now - t).toNat < p.minPeriod
    (ch.state = .disabled ∨ ¬rises ∨ p.indexMode = .off →
      exec (.indexEdge e level) s = .next (takeHead { s with channels := s.channels.set e raised })) ∧
    (ch.state ≠ .disabled → rises → p.indexMode ≠ .off → glitch →
      exec (.indexEdge e level) s = .next (takeHead { s with
        channels := s.channels.set e { raised with glitchCount := bump ch.glitchCount } })) ∧
    (ch.state ≠ .disabled → rises → p.indexMode ≠ .off → ¬glitch →
      let slip : Int := (ch.position - p.indexValue + p.cpr / 2) % p.cpr - p.cpr / 2
      let slipped := decide (p.mode = .modular) && ch.lastIndex.isSome && decide ((p.slipTol : Int) < |slip|)
      let zeroed := decide (p.indexMode = .every) || (decide (p.indexMode = .once) && ch.armed)
      let uncorrected := slipped && !zeroed
      let keeps := p.captureHold && ch.captureHeld
      let measured : Option Nat := ch.lastIndex.bind (fun t =>
        if ch.dirChange = false ∧ p.minPeriod ≤ (now - t).toNat ∧ (now - t).toNat ≤ p.maxPeriod then
          some (now - t).toNat else none)
      let position : Int := if zeroed then
        (match p.mode with | .modular => p.indexValue % (p.cpr : Int) | .linear => p.indexValue) else ch.position
      let next : ChanState × Option Nat := match p.mode, ch.state with
        | .linear, .unhomed => (.homed, ch.period)
        | .linear, st => (st, ch.period)
        | .modular, .stopped => (if uncorrected then .slipped else .homed, none)
        | .modular, .slipped => (if zeroed then .homed else .slipped, none)
        | .modular, .disabled => (.disabled, ch.period)
        | .modular, .unhomed => (.homed, none)
        | .modular, _ =>
          if uncorrected then (.slipped, none) else measured.elim (.homed, none) (fun t => (.running, some t))
      let auger : AugerState := match ch.auger with
        | .outside => if position ≤ p.inThreshold then .inside else .outside
        | _ => if p.outThreshold ≤ position then .outside else .inside
      exec (.indexEdge e level) s = .next (takeHead
        ((if slipped then s.ask (.faultNotice .encoderSlip e.num (bump ch.slipCount)) else s).changeChannel e { raised with
          captureCount := if keeps then ch.captureCount else ch.position
          captureTime := if keeps then ch.captureTime else now
          captureHeld := p.captureHold
          slipCount := if slipped then bump ch.slipCount else ch.slipCount
          position := position
          armed := ch.armed && !(zeroed && decide (p.indexMode = .once))
          state := next.1
          period := next.2
          lastIndex := some now
          dirChange := false
          auger := if p.mode = .linear ∧ next.1 = .homed then auger else ch.auger })))

/-- The stop watch: on a HOMED or RUNNING MODULAR channel, STOP_WATCH_EXPIRY with MAX_PERIOD µs passed since the last index,
and a write of MAX_PERIOD below the time passed, enter STOPPED with no period, count the stop and send ENCODER_STOPPED; with
less time passed, or in any other state or mode, neither does more than store and answer (R37). Read from the spec by
inference: that ENCODER_STOPPED is asked for before the ENCODER REPORT of the change (log entry 17), that a value equal to
the time passed does not act at the write (log entry 19), and that a write of the value already held acts (log entry 34). -/
def Obligations.StopWatch : Prop :=
  ∀ (s : State) (e : ChanId),
    let p := s.chanParams e
    let stops (u : State) : State :=
      (u.ask (.faultNotice .encoderStopped e.num (bump (s.channel e).stopCount))).changeChannel e { s.channel e with
        state := .stopped, period := none, stopCount := bump (s.channel e).stopCount }
    let watches : Prop := p.mode = .modular ∧ ((s.channel e).state = .homed ∨ (s.channel e).state = .running)
    (s.held = false → ∀ t : Time, watches → (s.channel e).lastIndex = some t →
      (p.maxPeriod ≤ (s.timebase - t).toNat → exec (.stopWatchExpiry e) s = .next (takeHead (stops s))) ∧
      ((s.timebase - t).toNat < p.maxPeriod → exec (.stopWatchExpiry e) s = .next (takeHead s))) ∧
    (s.held = false → ¬watches ∨ (s.channel e).lastIndex = none →
      exec (.stopWatchExpiry e) s = .next (takeHead s)) ∧
    ∀ (node : Byte) (k : ReqSlot) (value : BitVec 32), s.Hears node k →
      let u := (s.heard k).stored (.chan e .maxPeriod) value.toInt
      let answered (t : State) := Host.Outcome.next (φ := Fault) (ρ := Refusal)
        (takeHead (t.replied (s.heard k) node (.chan e .maxPeriod) value.toInt))
      (u.chanParams e).maxPeriod = (clamp value.toInt 100000 4000000).toNat ∧
      (∀ t : Time, watches → (s.channel e).lastIndex = some t →
        ((clamp value.toInt 100000 4000000).toNat < (s.timebase - t).toNat →
          exec (.maxPeriod node e value) s = answered (stops u)) ∧
        ((s.timebase - t).toNat ≤ (clamp value.toInt 100000 4000000).toNat →
          exec (.maxPeriod node e value) s = answered u)) ∧
      (¬watches ∨ (s.channel e).lastIndex = none → exec (.maxPeriod node e value) s = answered u)

/-- ENABLE written from 0 to 1 enters UNHOMED with no last index time, no period, a clear mark and, with INDEX_MODE ONCE,
armed; from 1 to 0 it enters DISABLED with no period and the auger state UNKNOWN. MODE to MODULAR, and CPR on a MODULAR
channel, taken with ENABLE 0 and SETUP active, bring the position modulo the stored CPR; a change of either clears the phase
table of every camera bound to the channel, and a change of PHASE_SOURCE, taken with SETUP active, that of its camera, each
clear counted. The value already held changes nothing (R33, R44, R123, R124, R206). -/
def Obligations.ChannelSetupWrites : Prop :=
  (∀ (s : State) (node : Byte) (k : ReqSlot) (e : ChanId) (value : BitVec 32), s.Hears node k →
     let u := (s.heard k).stored (.chan e .enable) value.toInt
     let p := s.chanParams e
     let ch := s.channel e
     let answered (t : State) := Host.Outcome.next (φ := Fault) (ρ := Refusal)
       (takeHead (t.replied (s.heard k) node (.chan e .enable) value.toInt))
     ((p.enable = true ∧ 1 ≤ value.toInt) ∨ (p.enable = false ∧ value.toInt ≤ 0) →
       u = s.heard k ∧ exec (.enable node e value) s = answered u) ∧
     (p.enable = false → 1 ≤ value.toInt → (u.chanParams e).enable = true ∧
       exec (.enable node e value) s = answered (u.changeChannel e { ch with
         state := .unhomed, lastIndex := none, period := none, dirChange := false
         armed := ch.armed || decide (p.indexMode = .once) })) ∧
     (p.enable = true → value.toInt ≤ 0 → (u.chanParams e).enable = false ∧
       exec (.enable node e value) s =
         answered (u.changeChannel e { ch with state := .disabled, period := none, auger := .unknown }))) ∧
  ∀ (s : State) (node : Byte) (k : ReqSlot) (e : ChanId) (c : CamId) (value : BitVec 32), s.Hears node k →
    s.setup = true →
    let u (id : ParamId) := (s.heard k).stored id value.toInt
    let p := s.chanParams e
    let answered (t : State) (id : ParamId) := Host.Outcome.next (φ := Fault) (ρ := Refusal)
      (takeHead (t.replied (s.heard k) node id value.toInt))
    let emptied (t : PhaseTable) : PhaseTable := { t with
      bins := List.replicate 32 ⟨⟨0, 0⟩, ⟨0, 0⟩⟩, lastPhase := none, clearCount := bump t.clearCount }
    let bound (changed : Bool) (c : CamId) : PhaseTable :=
      if changed = true ∧ (s.camParams c).phaseSource.chan? = some e then emptied (s.table c) else s.table c
    let boundTables (changed : Bool) : PerCam PhaseTable :=
      ⟨bound changed .cam0, bound changed .cam1, bound changed .cam2, bound changed .cam3⟩
    let rebound (cpr : Nat) : PerChan Channel :=
      s.channels.set e { s.channel e with position := (s.channel e).position % (cpr : Int) }
    let cpr := (clamp value.toInt 16 4096).toNat
    let source : PhaseSource := if value.toInt ≤ 0 then .none else if value.toInt = 1 then .ec0 else .ec1
    (p.enable = false → value.toInt ≤ 0 → exec (.mode node e value) s = answered { u (.chan e .mode) with
      channels := rebound p.cpr, tables := boundTables (decide (p.mode ≠ .modular)) } (.chan e .mode)) ∧
    (p.enable = false → 1 ≤ value.toInt → exec (.mode node e value) s = answered { u (.chan e .mode) with
      tables := boundTables (decide (p.mode ≠ .linear)) } (.chan e .mode)) ∧
    (p.enable = false → exec (.cpr node e value) s = answered { u (.chan e .cpr) with
      channels := if p.mode = .modular then rebound cpr else s.channels
      tables := boundTables (decide (p.cpr ≠ cpr)) } (.chan e .cpr)) ∧
    ((u (.cam c .phaseSource)).camParams c).phaseSource = source ∧
    exec (.phaseSource node c value) s = answered { u (.cam c .phaseSource) with
      tables := if source = (s.camParams c).phaseSource then s.tables
        else s.tables.set c (emptied (s.table c)) } (.cam c .phaseSource)

/-- OUT_THRESHOLD and IN_THRESHOLD, taken with SETUP active: an IN_THRESHOLD at or above OUT_THRESHOLD is stored one below
it; an OUT_THRESHOLD at or below IN_THRESHOLD is stored, and IN_THRESHOLD lowered to one below it; both are answered
CLAMPED. A HOMED LINEAR channel then evaluates its auger state with the thresholds stored (R39, R40). -/
def Obligations.ThresholdWrites : Prop :=
  ∀ (s : State) (node : Byte) (k : ReqSlot) (e : ChanId) (value : BitVec 32), s.Hears node k → s.setup = true →
    let p := s.chanParams e
    let ch := s.channel e
    let evaluated (q : ChanParams) : Channel := { ch with
      auger := if p.mode = .linear ∧ ch.state = .homed then
        (match ch.auger with
          | .outside => if ch.position ≤ q.inThreshold then .inside else .outside
          | _ => if q.outThreshold ≤ ch.position then .outside else .inside) else ch.auger }
    let written (q : ChanParams) : State :=
      { s.heard k with params := { s.params with chans := s.params.chans.set e q } }
    let out := clamp value.toInt (-8388607) 8388607
    let pOut : ChanParams := { p with outThreshold := out, inThreshold := min p.inThreshold (out - 1) }
    let inner := min (clamp value.toInt (-8388608) 8388606) (p.outThreshold - 1)
    let pIn : ChanParams := { p with inThreshold := inner }
    exec (.outThreshold node e value) s = .next (takeHead (((written pOut).changeChannel e (evaluated pOut)).ask
      (.paramReply node (ParamId.chan e .outThreshold).word
        (if out ≠ value.toInt ∨ out ≤ p.inThreshold then .clamped else .ok) (BitVec.ofInt 32 out)))) ∧
    exec (.inThreshold node e value) s = .next (takeHead (((written pIn).changeChannel e (evaluated pIn)).ask
      (.paramReply node (ParamId.chan e .inThreshold).word (if inner ≠ value.toInt then .clamped else .ok)
        (BitVec.ofInt 32 inner))))

/-- What a change of a channel sets off: an ENCODER REPORT when its state or auger state changed, and none otherwise; on
channel 2, a change to OUT with AUGER_PRIORITY above 0 makes the auger entry on AUGER_OUTPUT, FULL on AUGER_CAMERA at
AUGER_PRIORITY, persistent, received now; a change from OUT removes it; every other change leaves the arbiter as it is
(R39, R46, R169). Read from the spec by inference: that the ENCODER REPORT is asked for before what the arbiter asks for
(log entry 17). -/
def Obligations.ChannelChangesAreReported : Prop :=
  ∀ (s : State) (e : ChanId) (ch : Channel),
    let old := s.channel e
    let w : State := { s with channels := s.channels.set e ch }
    let u := w.ask (.encoderReport e)
    let p := s.params
    let t := s.changeChannel e ch
    (ch.state = old.state → ch.auger = old.auger → t = w) ∧
    (ch.state ≠ old.state ∨ ch.auger ≠ old.auger →
      e ≠ .ec2 ∨ ch.auger = old.auger ∨ (ch.auger ≠ .outside ∧ old.auger ≠ .outside) ∨
        (ch.auger = .outside ∧ p.augerPriority = 0) → t = u) ∧
    (s.HoldersOk → s.OrdersOk → s.CopiesOk → e = .ec2 → ch.auger = .outside → old.auger ≠ .outside →
      0 < p.augerPriority →
      let entry : Entry := ⟨.full p.augerCamera, p.augerPriority, 0, s.timebase, s.arbiter.receipts + 1⟩
      u.ViewFrame t ∧ u.EntryMade t p.augerOutput .auger entry ∧ u.OutputAlone t p.augerOutput.other) ∧
    (s.HoldersOk → s.OrdersOk → s.CopiesOk → e = .ec2 → ch.auger ≠ .outside → old.auger = .outside →
      u.ViewFrame t ∧ ∀ o : OutId,
        (s.entry? o .auger = none → u.OutputAlone t o) ∧ ((s.entry? o .auger).isSome = true → u.EntryLeft t o .auger))

/-! ### Display outputs and stills -/

/-- OUTPUT_FRAME_START, due one spacing after the last: the raster timing moves on with RASTER_RATE as stored. With the
frozen flag clear the granted or default view is shown, a SPLIT of one camera as FULL, and each of its windows takes its
camera's newest READY slot with the crop origin of its record and the first border state that applies; with the flag set
both windows let go and are FROZEN. Pins follow the windows, and VIEW STATUS is asked for a changed view or border (R129,
R132, R134–R136, R138–R141, R143, R146). Read from R129 by inference: that the next frame start is counted from the time
this one was due, and when the 60-frame pattern starts afresh (log entry 22). -/
def Obligations.OutputFrameStarts : Prop :=
  ∀ (s : State) (o : OutId), s.held = false → s.PinsOk →
    let oc := s.output o
    let rate := (s.outParams o).rasterRate
    let spacing := if oc.rasterRate = 50 then 20000 else if oc.rasterPhase = 2 then 16666 else 16667
    let timed : Compositor := { oc with
      frameStart := s.timebase, blanked := false, rasterStart := oc.rasterStart + BitVec.ofNat 32 spacing
      rasterRate := rate
      rasterPhase := if oc.patternFresh = true ∨ oc.rasterRate = 50 then 0 else (oc.rasterPhase + 1) % 3
      patternFresh := false }
    let chosen : View := oc.grant.getD (match (s.outParams o).defaultLayout with
      | .full => .full (s.outParams o).defaultCamA
      | .split => .split (s.outParams o).defaultCamA (s.outParams o).defaultCamB)
    let view : View := match chosen with
      | .full c => .full c
      | .split a b => if a = b then .full a else .split a b
    let drawn (k : SlotId) (c : CamId) (r : Record) (sh : XY Int) : Window :=
      let p := s.camParams c
      let ox := clamp (p.nominalX + nearest sh.x 16) 0 96
      { cam := c, slot := some k, ox := (ox - ox % 2).toNat, oy := (clamp (p.nominalY + nearest sh.y 16) 0 64).toNat
        border := if p.staleLimit * 1000 < (s.timebase - r.capture).toNat then .stale
          else if 0 < (s.screen c).rejectedRun then .held
          else if r.verdict = some .forced then .forced else .live }
    let shows (old new : Window) (c : CamId) : Prop :=
      (∀ k r sh, (s.ring c).newestReady? = some k → (s.slot c k).record = some r → r.shift = some sh →
        new = drawn k c r sh) ∧
      ((s.ring c).newestReady? = none → old.cam ≠ c ∨ old.slot = none →
        new = { old with cam := c, slot := none, border := .noSignal })
    let holders (w v : Window) : List (CamId × Option SlotId) := [(w.cam, w.slot), (v.cam, v.slot)]
    ((s.timebase - oc.rasterStart).toNat < spacing → exec (.outputFrameStart o) s = .next (takeHead s)) ∧
    (spacing ≤ (s.timebase - oc.rasterStart).toNat → ∃ t, exec (.outputFrameStart o) s = .next (takeHead t) ∧
      t = { s with rings := t.rings, outputs := s.outputs.set o (t.output o), mi := t.mi } ∧
      s.RepinnedBy t (holders (t.output o).win1 (t.output o).win2) (holders oc.win1 oc.win2) ∧
      (oc.frozen = true → t.output o = { timed with
        mode := .still, win1 := { oc.win1 with slot := none, border := .frozen }
        win2 := { oc.win2 with slot := none, border := .frozen } }) ∧
      (oc.frozen = false → t.output o = { timed with
          mode := .liveView, shown := view, win1 := (t.output o).win1, win2 := (t.output o).win2 } ∧
        (∀ c, view = .full c → shows oc.win1 (t.output o).win1 c ∧ (t.output o).win2 = { oc.win2 with slot := none }) ∧
        ∀ a b, view = .split a b → shows oc.win1 (t.output o).win1 a ∧ shows oc.win2 (t.output o).win2 b) ∧
      ((t.output o).shown = oc.shown → (t.output o).win1.border = oc.win1.border → (t.output o).borderB = oc.borderB →
        t.mi = s.mi) ∧
      ((t.output o).shown ≠ oc.shown ∨ (t.output o).win1.border ≠ oc.win1.border ∨ (t.output o).borderB ≠ oc.borderB →
        t.mi = s.mi.place (.viewStatus o)))

/-- What a video port sends at column `x`, line `y` of its raster. A border pixel has the colour of its window's border state,
Cb at even and Cr at odd columns: in FULL the first window's, in SPLIT the first's up to column 399 and the second's from
400 on. A view-area pixel is black from a soft reset to the next frame start, the still's in STILL, else the camera's at the
window's crop origin, of which a SPLIT window shows the middle 352 columns, or black without a slot (R130, R131, R138, R142,
R143, R149). While the part is held every pixel is black (R211): that is the model's choice (log entry 24). -/
def Obligations.RasterPixels : Prop :=
  ∀ (s : State) (o : OutId) (x y : Nat),
    let oc := s.output o
    let inView : Prop := (48 ≤ x ∧ x ≤ 751) ∧ 32 ≤ y ∧ y ≤ 447
    let sends (p : Word) : Prop := s.rasterPixel o x y = p
    let black : Word := 0x1080
    let colour (b : Border) : Nat × Nat × Nat := match b with
      | .frozen => (41, 240, 110)
      | .noSignal => (81, 90, 240)
      | .stale => (81, 90, 240)
      | .held => (150, 44, 180)
      | .forced => (210, 16, 146)
      | .live => (64, 128, 128)
    let border (b : Border) : Word :=
      BitVec.ofNat 16 (256 * (colour b).1 + if x % 2 = 0 then (colour b).2.1 else (colour b).2.2)
    let camera (w : Window) (u v : Nat) : Word := match w.slot with
      | none => black
      | some k => (RowStore.read (s.slot w.cam k).pixels 800 (w.oy + v)).getD (w.ox + u) black
    (s.held = true → sends black) ∧
    (s.held = false → ¬inView →
      (∀ a, oc.shown = .full a → sends (border oc.win1.border)) ∧
      ∀ a b, oc.shown = .split a b →
        (x ≤ 399 → sends (border oc.win1.border)) ∧ (400 ≤ x → sends (border oc.win2.border))) ∧
    (s.held = false → inView → oc.blanked = true → sends black) ∧
    (s.held = false → inView → oc.blanked = false → oc.mode = .still →
      sends ((RowStore.read (s.still o).pixels 704 (y - 32)).getD (x - 48) black)) ∧
    (s.held = false → inView → oc.blanked = false → oc.mode = .liveView →
      (∀ a, oc.shown = .full a → sends (camera oc.win1 (x - 48) (y - 32))) ∧
      ∀ a b, oc.shown = .split a b →
        (x ≤ 399 → sends (camera oc.win1 (176 + (x - 48)) (y - 32))) ∧
        (400 ≤ x → sends (camera oc.win2 (176 + (x - 400)) (y - 32))))

/-- An idle copier starts the oldest pending record: it takes from its output's compositor the shown layout and the slot and
origin of each window, none while the frozen flag is set; with no slot in any it answers NO_FRAME and goes on to the next;
otherwise the copy runs, each named slot is pinned, and the still is invalid and described by the sources. (What the still
slot holds meanwhile, here black, is the model's choice, log entry 13.) A running copy, or no record, leaves everything as
it is (R144, R176–R178). -/
def Obligations.CopiesStartInOrder : Prop :=
  ∀ s : State,
    (s.stillUnit.running.isSome = true ∨ s.stillUnit.waiting = [] → s.startPending = s) ∧
    ∀ (r : CopyRecord) (rest : List CopyRecord), s.stillUnit.running = none → s.stillUnit.waiting = r :: rest →
      let oc := s.output r.output
      let source (w : Window) : WinSource := ⟨w.cam, if oc.frozen then none else w.slot, w.ox, w.oy⟩
      let src : Sources := match oc.shown with
        | .full _ => .full (source oc.win1)
        | .split _ _ => .split (source oc.win1) (source oc.win2)
      let seq (w : WinSource) : Option Nat := w.slot.bind (fun k => (s.slot w.cam k).record.map (·.seq))
      let none' : Prop := ∀ w ∈ src.windows, w.slot = none
      (none' → s.startPending = State.startPending ({ s with stillUnit := { s.stillUnit with waiting := rest } }.ask
        (.requestResult r.node (byteOf r.output.num 0) .freeze .noFrame))) ∧
      (¬none' → ∃ t, s.startPending = t ∧ t = { s with
          rings := t.rings
          stillUnit := {
            running := some (r, src), waiting := rest
            stills := s.stillUnit.stills.set r.output { s.still r.output with
              valid := false, pixels := []
              desc := some ⟨src, seq (source oc.win1), oc.shown.camB?.bind (fun _ => seq (source oc.win2)), none⟩ } } } ∧
        s.RepinnedBy t (src.windows.map (fun w => (w.cam, w.slot))) [])

/-- FREEZE and UNFREEZE of an existing output. A maximum priority below the holder's is refused LOW_PRIORITY. A freeze with
a copy pending or running is BUSY, with no slot in the shown windows NO_FRAME, and otherwise its record joins the pending
list and an idle copier starts it. An unfreeze cancels a pending or running copy, which answers the freeze CANCELLED, or
clears the frozen flag, and is answered OK, or NOT_FROZEN when there is neither (R144, R145, R174, R175, R180).
Read from the spec by inference: that CANCELLED is asked for before the answers of the copy that starts next (log entry 17). -/
def Obligations.FreezeMessages : Prop :=
  ∀ (s : State) (node out : Byte) (k : ReqSlot) (o : OutId), s.Hears node k → OutId.ofNat? out.toNat = some o →
    s.CopiesOk → s.PinsOk →
    let u := s.heard k
    let oc := s.output o
    let reach : Prop := ∀ e, s.holderEntry? o = some e → e.priority ≤ s.params.maxPriority.get k
    let held : Prop := oc.frozen = false ∧
      (oc.win1.slot.isSome = true ∨ (oc.shown.layout = .split ∧ oc.win2.slot.isSome = true))
    let told (t : State) (w : What) (res : Result) : State := t.ask (.requestResult node (byteOf o.num 0) w res)
    let cancelled : Still := { s.still o with cancelled := bump (s.still o).cancelled }
    (¬reach → exec (.freeze node out) s = .next (takeHead (u.ask (.requestResult node out .freeze .lowPriority))) ∧
      exec (.unfreeze node out 0) s = .next (takeHead (u.ask (.requestResult node out .unfreeze .lowPriority)))) ∧
    (reach → s.stillUnit.busy o = true → exec (.freeze node out) s = .next (takeHead (told u .freeze .busy))) ∧
    (reach → s.stillUnit.busy o = false → ¬held →
      exec (.freeze node out) s = .next (takeHead (told u .freeze .noFrame))) ∧
    (reach → s.stillUnit.busy o = false → held → exec (.freeze node out) s = .next (takeHead (State.startPending
      { u with stillUnit := { s.stillUnit with waiting := s.stillUnit.waiting ++ [⟨o, k, node⟩] } }))) ∧
    (∀ r, reach → s.stillUnit.pendingOf o = some r → exec (.unfreeze node out 0) s = .next (takeHead (told
      ({ u with stillUnit := { s.stillUnit with
          waiting := s.stillUnit.waiting.filter (fun q => q.output ≠ o)
          stills := s.stillUnit.stills.set o cancelled } }.ask
        (.requestResult r.node (byteOf o.num 0) .freeze .cancelled)) .unfreeze .ok))) ∧
    (∀ r src, reach → s.stillUnit.running = some (r, src) → r.output = o →
      ∃ t, exec (.unfreeze node out 0) s = .next (takeHead (told t.startPending .unfreeze .ok)) ∧
        t = { u with
          rings := t.rings
          stillUnit := { s.stillUnit with running := none, stills := s.stillUnit.stills.set o cancelled }
          mi := u.mi.place (.requestResult r.node (byteOf o.num 0) .freeze .cancelled) } ∧
        u.RepinnedBy t [] (src.windows.map (fun w => (w.cam, w.slot)))) ∧
    (reach → s.stillUnit.busy o = false → oc.frozen = true → exec (.unfreeze node out 0) s =
      .next (takeHead (told { u with outputs := s.outputs.set o { oc with frozen := false } } .unfreeze .ok))) ∧
    (reach → s.stillUnit.busy o = false → oc.frozen = false →
      exec (.unfreeze node out 0) s = .next (takeHead (told u .unfreeze .notFrozen)))

/-- COPY_COMPLETION with a copy running: the still becomes valid, its pixel (u, v) the source pixel that its layout and
origin name, or black for a window without a slot, its description takes the completion time, the completed count rises,
the copy's pins are released, the frozen flag is set, the freeze is answered FROZEN, and the next pending copy starts. A
grant change of an output hands its compositor the holder's view, or DEFAULT, and clears its frozen flag; its copy, pending
or running, is aborted with the freeze answered ABORTED and the pins released, the next starting; VIEW STATUS is asked for
and the grant count rises (R133, R145, R165, R178, R179, R181, R183).
Read from the spec by inference: that ABORTED is asked for before the answers of the copy that starts next and before VIEW STATUS
(log entry 17). -/
def Obligations.CopiesEnd : Prop :=
  (∀ s : State, s.held = false → s.PinsOk →
     (s.stillUnit.running = none → exec .copyCompletion s = .next (takeHead s)) ∧
     ∀ r src, s.stillUnit.running = some (r, src) →
       let o := r.output
       let source (w : WinSource) (x y : Nat) : Word :=
         w.slot.elim 0x1080#16 (fun k => RowStore.pixel (s.slot w.cam k).pixels 800 (w.ox + x) (w.oy + y))
       ∃ t pixels, exec .copyCompletion s = .next (takeHead (State.startPending t)) ∧
         t = { s with
           rings := t.rings
           outputs := s.outputs.set o { s.output o with frozen := true }
           stillUnit := { s.stillUnit with
             running := none
             stills := s.stillUnit.stills.set o { s.still o with
               valid := true, pixels := pixels, completed := bump (s.still o).completed
               desc := (s.still o).desc.map (fun d => { d with completed := some s.timebase }) } }
           mi := s.mi.place (.requestResult r.node (byteOf o.num 0) .freeze .frozen) } ∧
         s.RepinnedBy t [] (src.windows.map (fun w => (w.cam, w.slot))) ∧
         ∀ u v : Nat, u < 704 → v < 416 →
           (∀ w, src = .full w → RowStore.pixel pixels 704 u v = source w u v) ∧
           ∀ w w', src = .split w w' → RowStore.pixel pixels 704 u v =
             if u < 352 then source w (176 + u) v else source w' (176 + u - 352) v) ∧
  ∀ (s : State) (o : OutId), s.CopiesOk → s.PinsOk →
    let handed : State := { s with
      outputs := s.outputs.set o { s.output o with grant := (s.holderEntry? o).map (·.view), frozen := false } }
    let counted (t : State) : State := { t.ask (.viewStatus o) with arbiter := { s.arbiter with
      outs := s.arbiter.outs.set o { s.outGrant o with grantCount := bump (s.outGrant o).grantCount } } }
    let aborted : Still := { s.still o with aborted := bump (s.still o).aborted }
    (s.stillUnit.busy o = false → s.grantChange o = counted handed) ∧
    (∀ r, s.stillUnit.pendingOf o = some r → s.grantChange o = counted ({ handed with
      stillUnit := { s.stillUnit with
        waiting := s.stillUnit.waiting.filter (fun q => q.output ≠ o)
        stills := s.stillUnit.stills.set o aborted } }.ask
          (.requestResult r.node (byteOf o.num 0) .freeze .aborted))) ∧
    ∀ r src, s.stillUnit.running = some (r, src) → r.output = o →
      ∃ t, s.grantChange o = counted t.startPending ∧
        t = { handed with
          rings := t.rings
          stillUnit := { s.stillUnit with running := none, stills := s.stillUnit.stills.set o aborted }
          mi := s.mi.place (.requestResult r.node (byteOf o.num 0) .freeze .aborted) } ∧
        s.RepinnedBy t [] (src.windows.map (fun w => (w.cam, w.slot)))

/-! ### View arbitration -/

/-- VIEW REQUEST: a layout byte other than SPLIT is FULL, whose camera B is not read; the priority is clamped into 1 … the
requester's maximum and the hold to 60,000 ms; the entry so made, received now, is created or replaces the requester's own,
and the output is arbitrated; the answer is GRANTED to the holder, otherwise CLAMPED or WAITING. The other output and its
entries stay (R154–R156, R158–R161, R163, R165). -/
def Obligations.ViewRequests : Prop :=
  ∀ (s : State) (node out layout a b priority : Byte) (hold : Word) (k : ReqSlot) (o : OutId) (v : View),
    s.Hears node k → s.HoldersOk → s.OrdersOk → s.CopiesOk → OutId.ofNat? out.toNat = some o →
    ((∃ ca, layout ≠ 1 ∧ CamId.ofNat? a.toNat = some ca ∧ v = .full ca) ∨
      ∃ ca cb, layout = 1 ∧ CamId.ofNat? a.toNat = some ca ∧ CamId.ofNat? b.toNat = some cb ∧ v = .split ca cb) →
    let u := s.heard k
    let p := min (max priority.toNat 1) (s.params.maxPriority.get k)
    let h := min hold.toNat 60000
    ∃ t, u.ViewFrame t ∧ u.EntryMade t o (.master k) ⟨v, p, h, s.timebase, s.arbiter.receipts + 1⟩ ∧
      u.OutputAlone t o.other ∧
      t.arbiter = { u.arbiter with receipts := s.arbiter.receipts + 1, table := t.arbiter.table, outs := t.arbiter.outs } ∧
      exec (.viewRequest node out layout a b priority hold) s = .next (takeHead (t.ask (.requestResult node out .request
        (if (t.outGrant o).holder = some (.master k) then .granted
          else if p ≠ priority.toNat ∨ h ≠ hold.toNat then .clamped else .waiting))))

/-- VIEW RELEASE removes the requester's own entry of the output, answered OK, or is answered NOT_HELD when there is none;
TIMED_EXPIRY removes an entry whose hold, above 0, has passed since its receipt, without any answer, and does nothing to
any other. Where the holder's entry leaves, the best remaining one is granted the output, or the default view; where
another leaves, the candidate alone is formed afresh (R157, R164, R166). -/
def Obligations.EntriesEnd : Prop :=
  ∀ (s : State) (o : OutId), s.HoldersOk → s.OrdersOk → s.CopiesOk →
    let left (u t : State) (r : Requester) : Prop := u.ViewFrame t ∧ u.EntryLeft t o r ∧ u.OutputAlone t o.other ∧
      t.arbiter = { u.arbiter with table := t.arbiter.table, outs := t.arbiter.outs }
    (∀ (node out : Byte) (k : ReqSlot), s.Hears node k → OutId.ofNat? out.toNat = some o →
      (s.entry? o (.master k) = none → exec (.viewRelease node out) s =
        .next (takeHead ((s.heard k).ask (.requestResult node out .release .notHeld)))) ∧
      ((s.entry? o (.master k)).isSome = true → ∃ t, left (s.heard k) t (.master k) ∧
        exec (.viewRelease node out) s = .next (takeHead (t.ask (.requestResult node out .release .ok))))) ∧
    ∀ r : Requester, s.held = false →
      (s.entry? o r = none → exec (.timedExpiry r o) s = .next (takeHead s)) ∧
      ∀ e, s.entry? o r = some e →
        (e.hold = 0 ∨ (s.timebase - e.receipt).toNat < e.hold * 1000 →
          exec (.timedExpiry r o) s = .next (takeHead s)) ∧
        (0 < e.hold → e.hold * 1000 ≤ (s.timebase - e.receipt).toNat →
          ∃ t, left s t r ∧ exec (.timedExpiry r o) s = .next (takeHead t))

/-- Keep-alive. A requester with a persistent entry, last heard KEEPALIVE ms ago or longer, expires at KEEPALIVE_EXPIRY: every
persistent entry of it leaves, its timed ones stay, its expiry count rises and REQUEST_EXPIRED is sent once; where its entry
held an output, the best entry that remains is granted it, two grant changes being counted (R165; log entry 29), or the
default view, one being counted. Otherwise the expiry does nothing. A write of KEEPALIVE expires every such requester silent
for longer than the value stored, and no other, in the order of their slots 1 to 6, which is the model's choice (log entry
30); that an equal silence does not act there, and that a write of the value already held does, is read from the spec by
inference (log entries 19, 34) (R164, R165, R167). -/
def Obligations.KeepaliveExpiries : Prop :=
  ∀ s : State, s.HoldersOk → s.OrdersOk → s.CopiesOk →
    let persistent (k : ReqSlot) (o : OutId) : Prop := ∃ e, s.entry? o (.master k) = some e ∧ e.hold = 0
    let silentFor (w : State) (k : ReqSlot) (us : Nat) : Prop := (∃ o, persistent k o) ∧
      ∃ t, w.arbiter.lastHeard.get k = some t ∧ us ≤ (s.timebase - t).toNat
    let expired (v w : State) (k : ReqSlot) : Prop := v.ViewFrame w ∧
      w.arbiter = { v.arbiter with
        expiryCount := v.arbiter.expiryCount.set k (bump (s.arbiter.expiryCount.get k))
        table := w.arbiter.table, outs := w.arbiter.outs } ∧
      v.AskedFor w (.faultNotice .requestExpired k.num (bump (s.arbiter.expiryCount.get k))) ∧
      ∀ o, (persistent k o → v.EntryExpired w o (.master k)) ∧ (¬persistent k o → v.OutputAlone w o)
    (∀ k, s.held = false → silentFor s k (s.params.keepalive * 1000) → ∃ t,
      exec (.keepaliveExpiry k) s = .next (takeHead t) ∧ expired s t k) ∧
    (∀ k, s.held = false → ¬silentFor s k (s.params.keepalive * 1000) →
      exec (.keepaliveExpiry k) s = .next (takeHead s)) ∧
    ∀ (node : Byte) (k : ReqSlot) (value : BitVec 32), s.Hears node k →
      let u := (s.heard k).stored .keepalive value.toInt
      let ms := (clamp value.toInt 300 5000).toNat
      u.params.keepalive = ms ∧
      let expires (j : ReqSlot) : Prop := silentFor u j (ms * 1000 + 1)
      ∃ w : Nat → State, w 0 = u ∧
        exec (.keepaliveParamWrite node value) s =
          .next (takeHead ((w 6).replied (s.heard k) node .keepalive value.toInt)) ∧
        (∀ j : ReqSlot, (expires j → expired (w (j.num - 1)) (w j.num) j) ∧
          (¬expires j → w j.num = w (j.num - 1))) ∧
        u.ViewFrame (w 6) ∧ (w 6).HoldersOk ∧ (∀ o, (w 6).entry? o .auger = s.entry? o .auger) ∧
        ∀ j o, (expires j → persistent j o → (w 6).entry? o (.master j) = none) ∧
          (¬(expires j ∧ persistent j o) → (w 6).entry? o (.master j) = s.entry? o (.master j))

/-- The end of a dwell. At DWELL_EXPIRY, with the dwell RUNNING and DWELL ms passed since the grant time, and at a write of a
DWELL at or below the time passed, the output's candidate becomes holder, or without one the dwell is ELAPSED. A write of a
DWELL above the time passed leaves the dwell of a held output RUNNING, also where it was ELAPSED, and changes nothing else;
that it revives an ELAPSED dwell is read from R161 by inference (log entry 18), and so it is that a write of the value
already held acts as any other (log entry 34). Otherwise the output stays as it is. No entry
changes (R161, R162, R165). -/
def Obligations.DwellEnds : Prop :=
  ∀ s : State, s.HoldersOk → s.OrdersOk → s.CopiesOk →
    let passed (ms : Nat) (o : OutId) : Prop := ms * 1000 ≤ (s.timebase - (s.outGrant o).grantTime).toNat
    let elapses (u t : State) (o : OutId) : Prop :=
      (∀ r, (s.outGrant o).candidate = some r → u.GrantedTo t o r) ∧
      ((s.outGrant o).candidate = none →
        t.outGrant o = { s.outGrant o with dwellRunning := false } ∧ t.output o = s.output o)
    let framed (u t : State) : Prop := u.ViewFrame t ∧
      t.arbiter = { u.arbiter with outs := t.arbiter.outs }
    (∀ o, s.held = false →
      ((s.outGrant o).dwellRunning = true → passed s.params.dwell o → ∃ t,
        exec (.dwellExpiry o) s = .next (takeHead t) ∧ framed s t ∧ elapses s t o ∧ s.OutputAlone t o.other) ∧
      ((s.outGrant o).dwellRunning = false ∨ ¬passed s.params.dwell o →
        exec (.dwellExpiry o) s = .next (takeHead s))) ∧
    ∀ (node : Byte) (k : ReqSlot) (value : BitVec 32), s.Hears node k →
      let u := (s.heard k).stored .dwell value.toInt
      let ms := (clamp value.toInt 0 5000).toNat
      u.params.dwell = ms ∧ ∃ t,
        exec (.dwell node value) s = .next (takeHead (t.replied (s.heard k) node .dwell value.toInt)) ∧ framed u t ∧
        ∀ o, (passed ms o → elapses u t o) ∧
          (¬passed ms o → (s.outGrant o).holder = none → u.OutputAlone t o) ∧
          (¬passed ms o → (s.outGrant o).holder.isSome = true → t.requests o = s.requests o ∧
            t.outGrant o = { s.outGrant o with dwellRunning := true } ∧ t.output o = s.output o)

/-- Writes to a requester slot, taken with SETUP active. A changed node code removes the requester's entries on both outputs
and its last-heard time; a lowered maximum lowers its entries above it, each keeping its receipt: a holder no longer of the
highest priority loses the output to the best entry, one that stays keeps its grant with VIEW STATUS asked for, and the
candidate is formed afresh; the node code already held, and a maximum not lowered, change nothing (R153, R164, R165). -/
def Obligations.RequesterSlotWrites : Prop :=
  ∀ (s : State) (node : Byte) (k j : ReqSlot) (value : BitVec 32), s.Hears node k → s.setup = true →
    s.HoldersOk → s.OrdersOk → s.CopiesOk →
    let u (id : ParamId) := (s.heard k).stored id value.toInt
    let answered (t : State) (id : ParamId) := Host.Outcome.next (φ := Fault) (ρ := Refusal)
      (takeHead (t.replied (s.heard k) node id value.toInt))
    let code := (clamp value.toInt 0 254).toNat
    let top := (clamp value.toInt 1 7).toNat
    let uc := u (.nodeCode j)
    let um := u (.maxPriority j)
    (code = s.params.nodeCode.get j → exec (.slotNodeCode node j value) s = answered uc (.nodeCode j)) ∧
    (code ≠ s.params.nodeCode.get j → ∃ t, exec (.slotNodeCode node j value) s = answered t (.nodeCode j) ∧
      uc.ViewFrame t ∧ t.arbiter = { uc.arbiter with
        lastHeard := uc.arbiter.lastHeard.set j none, table := t.arbiter.table, outs := t.arbiter.outs } ∧
      ∀ o, ((s.entry? o (.master j)).isSome = true → uc.EntryLeft t o (.master j)) ∧
        (s.entry? o (.master j) = none → uc.OutputAlone t o)) ∧
    (s.params.maxPriority.get j ≤ top → exec (.slotMaxPriority node j value) s = answered um (.maxPriority j)) ∧
    (top < s.params.maxPriority.get j → ∃ t, exec (.slotMaxPriority node j value) s = answered t (.maxPriority j) ∧
      um.ViewFrame t ∧ t.arbiter = { um.arbiter with table := t.arbiter.table, outs := t.arbiter.outs } ∧
      ∀ o, ((∀ e, s.entry? o (.master j) = some e → e.priority ≤ top) → um.OutputAlone t o) ∧
        ∀ e, s.entry? o (.master j) = some e → top < e.priority →
          let above : Prop := ∃ q e', q ≠ .master j ∧ s.entry? o q = some e' ∧ top < e'.priority
          (∀ q, t.entry? o q = if q = .master j then some { e with priority := top } else s.entry? o q) ∧
          ((s.outGrant o).holder ≠ some (.master j) → um.GrantKept t o) ∧
          ((s.outGrant o).holder = some (.master j) → ¬above →
            um.GrantKept t o ∧ um.AskedFor t (.viewStatus o)) ∧
          ((s.outGrant o).holder = some (.master j) → above → ∃ h, t.Best o h ∧ um.GrantedTo t o h))

/-- Writes of the auger parameters while the auger entry stands as the invariant says. AUGER_PRIORITY to 0 removes it; to
another value it replaces it, or from 0 makes it when channel 2 is OUT; another AUGER_CAMERA replaces it; another
AUGER_OUTPUT removes it and makes it on the new output; a value already held, or no entry to act on, changes nothing (R169,
R170). -/
def Obligations.AugerWrites : Prop :=
  ∀ (s : State) (node : Byte) (k : ReqSlot) (value : BitVec 32), s.Hears node k →
    s.AugerOk → s.HoldersOk → s.OrdersOk → s.CopiesOk →
    let u (id : ParamId) := (s.heard k).stored id value.toInt
    let answered (t : State) (id : ParamId) := Host.Outcome.next (φ := Fault) (ρ := Refusal)
      (takeHead (t.replied (s.heard k) node id value.toInt))
    let p := s.params
    let isOut : Prop := (s.channel .ec2).auger = .outside
    let stands : Prop := isOut ∧ 0 < p.augerPriority
    let entry (c : CamId) (priority : Nat) : Entry :=
      ⟨.full c, priority, 0, s.timebase, s.arbiter.receipts + 1⟩
    let made (id : ParamId) (t : State) (c : CamId) (priority : Nat) : Prop :=
      (u id).ViewFrame t ∧ (u id).EntryMade t p.augerOutput .auger (entry c priority) ∧
        (u id).OutputAlone t p.augerOutput.other
    let priority := (clamp value.toInt 0 7).toNat
    let camera := camOfCode (clamp value.toInt 0 3)
    let output := outOfCode (clamp value.toInt 0 1)
    (priority = p.augerPriority ∨ ¬isOut →
      exec (.augerPriority node value) s = answered (u .augerPriority) .augerPriority) ∧
    (stands → priority = 0 → ∃ t, exec (.augerPriority node value) s = answered t .augerPriority ∧
      (u .augerPriority).ViewFrame t ∧ (u .augerPriority).EntryLeft t p.augerOutput .auger ∧
      (u .augerPriority).OutputAlone t p.augerOutput.other) ∧
    (isOut → priority ≠ 0 → priority ≠ p.augerPriority → ∃ t,
      exec (.augerPriority node value) s = answered t .augerPriority ∧
      made .augerPriority t p.augerCamera priority) ∧
    (camera = p.augerCamera ∨ ¬stands →
      exec (.augerCamera node value) s = answered (u .augerCamera) .augerCamera) ∧
    (stands → camera ≠ p.augerCamera → ∃ t, exec (.augerCamera node value) s = answered t .augerCamera ∧
      made .augerCamera t camera p.augerPriority) ∧
    (output = p.augerOutput ∨ ¬stands →
      exec (.augerOutput node value) s = answered (u .augerOutput) .augerOutput) ∧
    (stands → output ≠ p.augerOutput → ∃ t, exec (.augerOutput node value) s = answered t .augerOutput ∧
      (u .augerOutput).ViewFrame t ∧ (u .augerOutput).EntryLeft t p.augerOutput .auger ∧
      (u .augerOutput).EntryMade t output .auger (entry p.augerCamera p.augerPriority))

/-! ### Parameters and messages -/

/-- PARAM_WRITE of any number from a known node: an unknown number is answered BAD_PARAM with value 0, a read-only item
READ_ONLY, a setup-guarded parameter with SETUP inactive LOCKED, and MODE, EDGE or CPR of an enabled channel BUSY, each
with the value held and nothing stored. Every other write is stored, handed to its block and answered with the value
stored; a parameter that acts only at a later use is stored and nothing more (R189, R203, R205). A RASTER_RATE changed to 60
also marks the 60-frame pattern to start afresh (R129, read by inference: log entry 22). -/
def Obligations.ParameterWrites : Prop :=
  ∀ (s : State) (node : Byte) (k : ReqSlot) (number : Word) (value : BitVec 32), s.Hears node k →
    let u := s.heard k
    let replies (t : State) (res : Result) (v : Int) := Host.Outcome.next (φ := Fault) (ρ := Refusal)
      (takeHead (t.ask (.paramReply node number res (BitVec.ofInt 32 v))))
    (paramOf number.toNat = none → u.readOnlyItem number.toNat = none →
      exec (.paramWrite node number value) s = replies u .badParam 0) ∧
    (∀ v, paramOf number.toNat = none → u.readOnlyItem number.toNat = some v →
      exec (.paramWrite node number value) s = replies u .readOnly v) ∧
    ∀ id, paramOf number.toNat = some id →
      (id.guarded = true → s.setup = false →
        exec (.paramWrite node number value) s = replies u .locked (s.params.read id)) ∧
      ((id.guarded = true → s.setup = true) →
        (∃ e, (s.chanParams e).enable = true ∧ (id = .chan e .mode ∨ id = .chan e .edge ∨ id = .chan e .cpr)) →
        exec (.paramWrite node number value) s = replies u .busy (s.params.read id)) ∧
      (s.Takes id →
        let res : Result := if s.params.clampsWrite id value.toInt then .clamped else .ok
        let fit := s.params.fit id value.toInt
        exec (.paramWrite node number value) s =
          replies ((u.stored id value.toInt).written id (s.params.read id) fit) res fit ∧
        ((∃ c p, id = .cam c p ∧ p ∉ [CamParam.linkEnable, .tapOverride, .tapGate, .holdLimit, .phaseSource]) ∨
          (∃ e p, id = .chan e p ∧
            p ∉ [ChanParam.enable, .mode, .cpr, .maxPeriod, .outThreshold, .inThreshold]) ∨
          (∃ o p, id = .out o p ∧ p ≠ .rasterRate) →
          exec (.paramWrite node number value) s = replies (u.stored id value.toInt) res fit) ∧
        ∀ o, id = .out o .rasterRate →
          exec (.paramWrite node number value) s = replies { u.stored id value.toInt with
            outputs := if fit = 60 ∧ (s.outParams o).rasterRate ≠ 60 then
              s.outputs.set o { s.output o with patternFresh := true } else s.outputs } res fit)

/-- The value a write stores: brought to the nearest limit of the range, NOMINAL_X then made even, RASTER_RATE 50 below 55 and
60 from 55 on, IN_THRESHOLD kept below OUT_THRESHOLD; CLAMPED whenever that changed it, or an OUT_THRESHOLD lowered the
other. It reads back so, every other parameter as before but for the lowered IN_THRESHOLD, and each writable parameter has
its own number. Each row that writes one parameter is the PARAM WRITE of that number; HOLD_LIMIT, once stored, lowers a
rejected-run above it to it (R40, R78, R203, R206). -/
def Obligations.StoredValuesAndParameterRows : Prop :=
  (∀ (p : Params) (id : ParamId) (v : Int), p.InRange →
     let c := clamp v id.range.1 id.range.2
     let fit := p.fit id v
     (id.range.1 ≤ fit ∧ fit ≤ id.range.2) ∧
     ((∀ n, id ≠ .cam n .nominalX) → (∀ o, id ≠ .out o .rasterRate) → (∀ e, id ≠ .chan e .inThreshold) → fit = c) ∧
     (∀ n, id = .cam n .nominalX → fit = if c % 2 = 0 then c else c - 1) ∧
     (∀ o, id = .out o .rasterRate → fit = if v < 55 then 50 else 60) ∧
     (∀ e, id = .chan e .inThreshold →
       fit = if (p.chans.get e).outThreshold ≤ c then (p.chans.get e).outThreshold - 1 else c) ∧
     (p.clampsWrite id v = true ↔
       fit ≠ v ∨ ∃ e, id = .chan e .outThreshold ∧ fit ≤ (p.chans.get e).inThreshold) ∧
     (p.write id fit).read id = fit ∧
     (∀ j, j ≠ id → (∀ e, id = .chan e .outThreshold → j ≠ .chan e .inThreshold) →
       (p.write id fit).read j = p.read j) ∧
     (∀ e, id = .chan e .outThreshold → (p.write id fit).read (.chan e .inThreshold) =
       if fit ≤ (p.chans.get e).inThreshold then fit - 1 else (p.chans.get e).inThreshold) ∧
     paramOf id.number = some id ∧ id.word.toNat = id.number) ∧
  ∀ (s : State) (node : Byte) (c : CamId) (e : ChanId) (j : ReqSlot) (value : BitVec 32) (offered : Tap),
    let write (id : ParamId) := exec (.paramWrite node id.word value) s
    let offering : State := s.setLink c { s.link c with offered := offered }
    (exec (.linkEnable node c value) s = write (.cam c .linkEnable) ∧
      exec (.holdLimit node c value) s = write (.cam c .holdLimit) ∧
      exec (.phaseSource node c value) s = write (.cam c .phaseSource) ∧
      (s.held = false → s.mi.onBus = true →
        exec (.tapOverride node c value offered) s =
          exec (.paramWrite node (ParamId.cam c .tapOverride).word value) offering ∧
        exec (.tapGate node c value offered) s =
          exec (.paramWrite node (ParamId.cam c .tapGate).word value) offering)) ∧
    (exec (.enable node e value) s = write (.chan e .enable) ∧ exec (.mode node e value) s = write (.chan e .mode) ∧
      exec (.cpr node e value) s = write (.chan e .cpr) ∧
      exec (.maxPeriod node e value) s = write (.chan e .maxPeriod) ∧
      exec (.outThreshold node e value) s = write (.chan e .outThreshold) ∧
      exec (.inThreshold node e value) s = write (.chan e .inThreshold)) ∧
    (exec (.dwell node value) s = write .dwell ∧ exec (.keepaliveParamWrite node value) s = write .keepalive ∧
      exec (.augerOutput node value) s = write .augerOutput ∧ exec (.augerCamera node value) s = write .augerCamera ∧
      exec (.augerPriority node value) s = write .augerPriority ∧
      exec (.slotNodeCode node j value) s = write (.nodeCode j) ∧
      exec (.slotMaxPriority node j value) s = write (.maxPriority j)) ∧
    ∀ k, s.Hears node k →
      let limit := (clamp value.toInt 0 120).toNat
      let u := (s.heard k).stored (.cam c .holdLimit) value.toInt
      (u.camParams c).holdLimit = limit ∧
      exec (.holdLimit node c value) s = .next (takeHead (State.replied { u with
        screens := s.screens.set c { s.screen c with rejectedRun := min (s.screen c).rejectedRun limit } }
        (s.heard k) node (.cam c .holdLimit) value.toInt))

/-- The table of R203: each writable parameter's number, the limits of its range, its default and its guard, and the field in
which its value is stored, with its code; a number names a parameter exactly when it is that parameter's own. -/
def Obligations.ParameterTable : Prop :=
  let row (id : ParamId) (number : Nat) (low high start : Int) (guarded : Bool) : Prop :=
    id.number = number ∧ id.range = (low, high) ∧ Params.default.read id = start ∧ id.guarded = guarded
  (∀ c : CamId, ∀ r ∈ [(CamParam.linkEnable, 0x00, (0 : Int), (1 : Int), (1 : Int), false),
      (.linkRate, 0x01, 10000, 40000, 25000, true), (.tapOverride, 0x02, -1, 127, -1, true),
      (.tapUpdateFrames, 0x03, 1, 255, 16, false), (.tapGate, 0x04, 0, 1, 1, false),
      (.concealLimit, 0x05, 0, 120, 24, false), (.nominalX, 0x06, 0, 96, 48, true), (.nominalY, 0x07, 0, 64, 32, true),
      (.phaseSource, 0x08, 0, 2, 0, true), (.exposureDelay, 0x09, -30000, 30000, 0, true),
      (.searchRx, 0x0A, 2, 16, 8, false), (.searchRy, 0x0B, 2, 16, 6, false), (.matchRatio, 0x0C, 1, 255, 24, false),
      (.acceptRatio, 0x0D, 0, 255, 160, false), (.holdLimit, 0x0E, 0, 120, 15, false),
      (.refreshCount, 0x0F, 8, 250, 60, false), (.driftShift, 0x10, 2, 8, 5, false), (.learnShift, 0x11, 1, 6, 3, false),
      (.minConf, 0x12, 1, 15, 4, false), (.outlierLimit, 0x13, 16, 768, 64, false),
      (.staleLimit, 0x14, 100, 2000, 300, false)],
    row (.cam c r.1) (0x100 + 0x20 * c.num + r.2.1) r.2.2.1 r.2.2.2.1 r.2.2.2.2.1 r.2.2.2.2.2) ∧
  (∀ e : ChanId, ∀ r ∈ [(ChanParam.enable, 0x00, (0 : Int), (1 : Int), (0 : Int), false),
      (.mode, 0x01, 0, 1, if e = .ec2 then 1 else 0, true), (.edge, 0x02, 0, 2, 2, true), (.hysteresis, 0x03, 0, 1, 1, false),
      (.cpr, 0x04, 16, 4096, if e = .ec1 then 400 else 360, true),
      (.indexMode, 0x05, 0, 2, if e = .ec2 then 1 else 2, false), (.indexValue, 0x06, -8388608, 8388607, 0, false),
      (.captureHold, 0x07, 0, 1, 0, false), (.clearMode, 0x08, 0, 1, 0, false), (.slipTol, 0x09, 0, 15, 1, false),
      (.minPeriod, 0x0A, 2000, 100000, 2000, false), (.maxPeriod, 0x0B, 100000, 4000000, 2000000, false),
      (.outThreshold, 0x0C, -8388607, 8388607, 800, true), (.inThreshold, 0x0D, -8388608, 8388606, 600, true)],
    row (.chan e r.1) (0x200 + 0x20 * e.num + r.2.1) r.2.2.1 r.2.2.2.1 r.2.2.2.2.1 r.2.2.2.2.2) ∧
  (∀ o : OutId, row (.out o .defaultLayout) (0x300 + 0x10 * o.num) 0 1 0 false ∧
    row (.out o .defaultCamA) (0x301 + 0x10 * o.num) 0 3 (if o = .a then 0 else 1) false ∧
    row (.out o .defaultCamB) (0x302 + 0x10 * o.num) 0 3 (if o = .a then 1 else 0) false ∧
    row (.out o .rasterRate) (0x303 + 0x10 * o.num) 50 60 60 false) ∧
  (row .dwell 0x400 0 5000 800 false ∧ row .keepalive 0x401 300 5000 1000 false ∧ row .augerOutput 0x402 0 1 0 false ∧
    row .augerCamera 0x403 0 3 1 false ∧ row .augerPriority 0x404 0 7 4 false) ∧
  (∀ r ∈ [(ReqSlot.k1, 0x410, (0x10 : Int), (7 : Int)), (.k2, 0x412, 0x11, 5), (.k3, 0x414, 0x12, 3), (.k4, 0x416, 0, 7),
      (.k5, 0x418, 0, 7), (.k6, 0x41A, 0, 7)],
    row (.nodeCode r.1) r.2.1 0 254 r.2.2.1 true ∧ row (.maxPriority r.1) (r.2.1 + 1) 1 7 r.2.2.2 true) ∧
  (∀ (n : Nat) (id : ParamId), paramOf n = some id ↔ id.number = n) ∧
  ([CamId.cam0, .cam1, .cam2, .cam3].map CamId.num = [0, 1, 2, 3] ∧
    [ChanId.ec0, .ec1, .ec2].map ChanId.num = [0, 1, 2] ∧ [OutId.a, .b].map OutId.num = [0, 1]) ∧
  ∀ (p : Params) (c : CamId) (e : ChanId) (o : OutId) (k : ReqSlot),
    let bit (b : Bool) : Int := if b then 1 else 0
    let pc := p.cams.get c
    let pe := p.chans.get e
    let po := p.outs.get o
    [CamParam.linkEnable, .linkRate, .tapOverride, .tapUpdateFrames, .tapGate, .concealLimit, .nominalX, .nominalY,
        .phaseSource, .exposureDelay, .searchRx, .searchRy, .matchRatio, .acceptRatio, .holdLimit, .refreshCount, .driftShift,
        .learnShift, .minConf, .outlierLimit, .staleLimit].map (fun q => p.read (.cam c q)) =
      [bit pc.linkEnable, (pc.linkRate : Int), pc.tapOverride, (pc.tapUpdateFrames : Int), bit pc.tapGate,
        (pc.concealLimit : Int), (pc.nominalX : Int), (pc.nominalY : Int),
        match pc.phaseSource with | .none => 0 | .ec0 => 1 | .ec1 => 2, pc.exposureDelay, (pc.searchRx : Int),
        (pc.searchRy : Int), (pc.matchRatio : Int), (pc.acceptRatio : Int), (pc.holdLimit : Int), (pc.refreshCount : Int),
        (pc.driftShift : Int), (pc.learnShift : Int), (pc.minConf : Int), (pc.outlierLimit : Int), (pc.staleLimit : Int)] ∧
    [ChanParam.enable, .mode, .edge, .hysteresis, .cpr, .indexMode, .indexValue, .captureHold, .clearMode, .slipTol,
        .minPeriod, .maxPeriod, .outThreshold, .inThreshold].map (fun q => p.read (.chan e q)) =
      [bit pe.enable, match pe.mode with | .modular => 0 | .linear => 1,
        match pe.edge with | .x1 => 0 | .x2 => 1 | .x4 => 2, bit pe.hysteresis, (pe.cpr : Int),
        match pe.indexMode with | .off => 0 | .once => 1 | .every => 2, pe.indexValue, bit pe.captureHold,
        bit pe.clearReload, (pe.slipTol : Int), (pe.minPeriod : Int), (pe.maxPeriod : Int), pe.outThreshold, pe.inThreshold] ∧
    [OutParam.defaultLayout, .defaultCamA, .defaultCamB, .rasterRate].map (fun q => p.read (.out o q)) =
      [match po.defaultLayout with | .full => 0 | .split => 1, (po.defaultCamA.num : Int), (po.defaultCamB.num : Int),
        (po.rasterRate : Int)] ∧
    [ParamId.dwell, .keepalive, .augerOutput, .augerCamera, .augerPriority, .nodeCode k, .maxPriority k].map p.read =
      [(p.dwell : Int), (p.keepalive : Int), (p.augerOutput.num : Int), (p.augerCamera.num : Int), (p.augerPriority : Int),
        (p.nodeCode.get k : Int), (p.maxPriority.get k : Int)]

/-- PARAM_READ from a known node changes nothing but the sender's last-heard time. A writable parameter is answered OK with its
value; every device and status item with the item as it stands, in the order of R209; every other number BAD_PARAM with 0
(R203, R208, R209). A queued message reads as its offset times 2^24 plus its subject bytes, little-endian (read by inference,
log entry 9); what stands for a thing that is absent where R209 names none is the model's reading (log entry 10). -/
def Obligations.ParameterReads : Prop :=
  ∀ (s : State) (node : Byte) (k : ReqSlot), s.Hears node k →
    let u := s.heard k
    let replies (number : Nat) (res : Result) (v : Int) : Prop := exec (.paramRead node (BitVec.ofNat 16 number)) s =
      .next (takeHead (u.ask (.paramReply node (BitVec.ofNat 16 number) res (BitVec.ofInt 32 v))))
    let bit (b : Bool) : Int := if b then 1 else 0
    let opt (n : Option Nat) : Int := n.elim (-1) (fun n => (n : Int))
    let time (t : Time) : Int := t.toInt
    let axes (v : XY Int) : List Int := [v.x, v.y]
    let slot (j : Option SlotId) : Int := opt (j.map SlotId.num)
    let slots := [SlotId.s0, .s1, .s2, .s3, .s4, .s5]
    let view (v : View) : List Int := match v with
      | .full a => [0, (a.num : Int), -1]
      | .split a b => [1, (a.num : Int), (b.num : Int)]
    let absent (n : Nat) : List Int := List.replicate n (-1)
    let source (w : WinSource) : List Int := [(w.cam.num : Int), slot w.slot, (w.ox : Int), (w.oy : Int)]
    let queued (m : Message) : Int := match m with
      | .requestResult n target what _ => 8 * 2 ^ 24 + (n.toNat + 256 * target.toNat + 65536 * what.code : Int)
      | .viewStatus o => 9 * 2 ^ 24 + (o.num : Int)
      | .cameraStatus c => 10 * 2 ^ 24 + (c.num : Int)
      | .paramReply n number _ _ => 11 * 2 ^ 24 + (n.toNat + 256 * number.toNat : Int)
      | .encoderReport e => 12 * 2 ^ 24 + (e.num : Int)
      | .faultNotice code subject _ => 13 * 2 ^ 24 + (code.code + 256 * (subject % 256) : Int)
    let part : List Int := [4210, 1, time s.timebase, (u.mi.busState.code : Int), (u.mi.txErrors : Int), (u.mi.rxErrors : Int),
        (u.mi.dropCount : Int), (u.mi.busOffCount : Int), bit u.mi.dropPending, (u.mi.queue.length : Int)] ++
      [0, 1, 2, 3, 4, 5, 6, 7].map (fun i => (u.mi.queue[i]?).elim (-1) queued)
    let camera (c : CamId) : List Int :=
      let l := s.link c
      let r := s.ring c
      let x := s.context c
      let t := s.table c
      let newest := s.newestRecord? c
      let d (ax : Axis) : Int := ((newest.bind (·.meas)).bind (fun m => (m.get ax).d)).getD (-65536)
      [(l.state.code : Int), (l.attempts : Int), (l.tap.toNat : Int), (l.lastFrameCounter.toNat : Int), (l.lossCount : Int),
          (l.failureCount : Int), (l.malformedRunCount : Int)] ++
        [(r.seqCounter : Int), (r.received : Int), (r.malformed : Int), (r.rejected : Int), (r.forced : Int),
          (r.overruns : Int), (r.superseded : Int), (r.aborted : Int)] ++
        slots.map (fun j => ((s.slot c j).state.code : Int)) ++ slots.map (fun j => ((s.slot c j).pins : Int)) ++
        [newest.elim (-65536) (fun r => (r.seq : Int)), ((s.screen c).clearRef : Int), ((s.screen c).rejectedRun : Int),
          ((s.screen c).lastQ : Int), ((s.screen c).lastVerdict.code : Int)] ++
        [bit x.reference.isSome] ++ axes x.refOff ++ axes x.drift ++ axes x.lastS ++
        [(x.validRun : Int), (x.invalidRun : Int), bit x.refreshPending, bit x.refLost,
          x.lastResult.elim 0 (fun r => (r.x.code : Int)), x.lastResult.elim 0 (fun r => (r.y.code : Int)), (x.jobs : Int),
          (x.edges : Int), (x.poors : Int), (x.refreshes : Int)] ++
        [opt (t.lastPhase.map (·.phase)), opt (t.lastPhase.map (·.b0)), opt (t.lastPhase.map (·.b1)),
          opt (t.lastPhase.map (·.bn)), (t.learnCount : Int), (t.outlierCount : Int), (t.clearCount : Int)] ++
        [opt (newest.bind (·.concealed)), opt (newest.bind (·.phase)), d .x, d .y]
    let bins (c : CamId) : List Int := (List.range 32).flatMap (fun i =>
      let b := (s.table c).bins.getD i ⟨⟨0, 0⟩, ⟨0, 0⟩⟩
      [b.value.x, b.value.y, (b.conf.x : Int), (b.conf.y : Int)])
    let channel (e : ChanId) : List Int :=
      let ch := s.channel e
      [(ch.state.code : Int), ch.position, (ch.lastDir.code : Int), bit ch.dirChange, bit ch.armed, ((ch.period.getD 0 : Nat) : Int),
        bit ch.lastIndex.isSome, ch.lastIndex.elim (-1) time, ch.captureCount, time ch.captureTime, bit ch.captureHeld,
        (ch.auger.code : Int), (ch.slipCount : Int), (ch.quadErrorCount : Int), (ch.glitchCount : Int),
        (ch.saturationCount : Int), (ch.stopCount : Int)]
    let job (j : Option Job) : List Int := [opt (j.map (·.cam.num)), opt (j.map (·.slot.num))]
    let copy (r : Option CopyRecord) : List Int := [opt (r.map (·.output.num)), opt (r.map (·.requester.num))]
    let engines : List Int := [bit s.engine.running.isSome] ++ job (s.engine.running.map (·.job)) ++
      [(s.engine.queue.length : Int)] ++ [0, 1, 2, 3].flatMap (fun i => job (s.engine.queue[i]?)) ++
      [bit s.stillUnit.running.isSome] ++ copy (s.stillUnit.running.map (·.1)) ++
      (match s.stillUnit.running.map (·.2) with
        | none => absent 9
        | some (.full w) => [0] ++ source w ++ absent 4
        | some (.split w v) => [1] ++ source w ++ source v) ++
      [(s.stillUnit.waiting.length : Int)] ++ copy s.stillUnit.waiting.head?
    let requester (j : ReqSlot) : List Int := [bit (u.arbiter.lastHeard.get j).isSome,
      (u.arbiter.lastHeard.get j).elim (-1) time, (s.arbiter.expiryCount.get j : Int)]
    let request (r : Requester) (o : OutId) : List Int := match s.entry? o r with
      | none => List.replicate 7 0
      | some e => [1] ++ view e.view ++ [(e.priority : Int), (e.hold : Int), time e.receipt]
    let output (o : OutId) : List Int :=
      let oc := s.output o
      let g := s.outGrant o
      let window (w : Window) : List Int := [(w.cam.num : Int), slot w.slot, (w.ox : Int), (w.oy : Int), (w.border.code : Int)]
      oc.grant.elim (0 :: absent 3) (fun v => 1 :: view v) ++ view oc.shown ++ [bit oc.frozen, (oc.mode.code : Int)] ++
        window oc.win1 ++ (match oc.shown with | .full _ => absent 5 | .split _ _ => window oc.win2) ++
        [time oc.frameStart, opt (g.holder.map Requester.num), time g.grantTime, bit g.dwellRunning,
          opt (g.candidate.map Requester.num), (g.grantCount : Int)] ++
        [bit (s.still o).valid, ((s.still o).completed : Int), ((s.still o).cancelled : Int), ((s.still o).aborted : Int)] ++
        match (s.still o).desc with
          | none => absent 12
          | some ⟨.full w, seq1, seq2, done⟩ =>
            [0] ++ source w ++ [opt seq1] ++ absent 4 ++ [opt seq2] ++ [done.elim (-1) time]
          | some ⟨.split w v, seq1, seq2, done⟩ =>
            [1] ++ source w ++ [opt seq1] ++ source v ++ [opt seq2] ++ [done.elim (-1) time]
    let cameras := [CamId.cam0, .cam1, .cam2, .cam3]
    let outputs := [OutId.a, .b]
    let masters := [ReqSlot.k1, .k2, .k3, .k4, .k5, .k6]
    let areas : List (Nat × List Int) :=
      [(0, [bit s.setup, (s.mi.idStrap.toNat : Int), if s.mi.rateHigh then 500 else 250,
          ((0x200 + 32 * s.mi.idStrap.toNat : Nat) : Int)]), (0x800, part), (0xD00, engines)] ++
        cameras.map (fun c => (0x900 + 0x40 * c.num, camera c)) ++ cameras.map (fun c => (0xB00 + 0x80 * c.num, bins c)) ++
        [ChanId.ec0, .ec1, .ec2].map (fun e => (0xA00 + 0x20 * e.num, channel e)) ++
        masters.map (fun j => (0xD40 + 3 * (j.num - 1), requester j)) ++
        (Requester.auger :: masters.map .master).flatMap (fun r =>
          outputs.map (fun o => (0xE00 + 0x10 * (2 * r.num + o.num), request r o))) ++
        outputs.map (fun o => (0xF00 + 0x40 * o.num, output o))
    (∀ id : ParamId, replies id.number .ok (s.params.read id)) ∧
    (∀ a ∈ areas, ∀ (i : Nat) (v : Int), a.2[i]? = some v → replies (a.1 + i) .ok v) ∧
    (∀ n : Nat, n < 65536 → (∀ id : ParamId, id.number ≠ n) → (∀ a ∈ areas, n < a.1 ∨ a.1 + a.2.length ≤ n) →
      replies n .badParam 0) ∧
    [SlotState.free, .filling, .scored, .ready].map SlotState.code = [0, 1, 2, 3] ∧
    [ScreenVerdict.none, .accepted, .forced, .rejected].map ScreenVerdict.code = [0, 1, 2, 3] ∧
    [BusState.joining, .errorActive, .errorPassive, .busOff].map BusState.code = [0, 1, 2, 3] ∧
    [DisplayMode.liveView, .still].map DisplayMode.code = [0, 1] ∧ [Dir.up, .down].map Dir.code = [0, 1]

/-- The outbound queue. Asking for a message replaces a queued one of its kind and subject in place; otherwise it joins at
the tail below eight; otherwise it is dropped and counted, with a queued OUTBOUND_DROP notice taking the new count or else
one owed. Whenever the buffer is empty and the controller on the bus, the head moves into the buffer, its bytes fixed then,
and an owed notice takes the tail (R192–R195). -/
def Obligations.OutboundQueue : Prop :=
  ∀ (s : State) (m : Message),
    let mi := s.mi
    let q := mi.queue
    let notice : Message := .faultNotice .outboundDrop 0 (bump mi.dropCount)
    (∀ pre post old, q = pre ++ old :: post → old.key = m.key → (∀ x ∈ pre ++ post, x.key ≠ m.key) →
      (s.ask m).mi = { mi with queue := pre ++ m :: post }) ∧
    ((∀ x ∈ q, x.key ≠ m.key) → q.length < 8 → (s.ask m).mi = { mi with queue := q ++ [m] }) ∧
    ((∀ x ∈ q, x.key ≠ m.key) → 8 ≤ q.length →
      ((∀ x ∈ q, x.key ≠ notice.key) →
        (s.ask m).mi = { mi with dropCount := bump mi.dropCount, dropPending := true }) ∧
      ∀ pre post old, q = pre ++ old :: post → old.key = notice.key → (∀ x ∈ pre ++ post, x.key ≠ notice.key) →
        (s.ask m).mi = { mi with dropCount := bump mi.dropCount, queue := pre ++ notice :: post }) ∧
    s.ask m = { s with mi := (s.ask m).mi } ∧
    (∀ head rest, (mi.busState = .errorActive ∨ mi.busState = .errorPassive) → mi.txBuffer = none → q = head :: rest →
      takeHead s = { s with mi := { mi with
        queue := rest ++ (if mi.dropPending then [.faultNotice .outboundDrop 0 mi.dropCount] else [])
        txBuffer := some ⟨0x200 + 32 * mi.idStrap.toNat + head.offset, messageBytes s head, false⟩
        dropPending := false } }) ∧
    (mi.busState = .joining ∨ mi.busState = .busOff ∨ mi.txBuffer.isSome = true ∨ q = [] → takeHead s = s)

/-- The bytes of each outbound kind, multi-byte fields little-endian, with its identifier's offset and every code they carry:
REQUEST RESULT 8, VIEW STATUS 9, CAMERA STATUS 10, PARAM REPLY 11, ENCODER REPORT 12, FAULT NOTICE 13. A VIEW STATUS of FULL
repeats camera A and border A; a CAMERA STATUS speaks of the newest READY frame, zeros without one; an ENCODER REPORT's
period is in units of 100 µs, 0 when invalid (R186, R195, R199, "Message layouts"). -/
def Obligations.OutboundBytes : Prop :=
  ([Result.ok, .granted, .waiting, .clamped, .unknownRequester, .badField, .notHeld, .busy, .lowPriority, .notFrozen, .frozen,
      .cancelled, .aborted, .locked, .readOnly, .badParam, .noFrame].map Result.code =
      [0, 1, 2, 3, 4, 5, 6, 7, 8, 9, 10, 11, 12, 13, 14, 15, 16] ∧
    [What.request, .release, .freeze, .unfreeze, .command].map What.code = [0, 1, 2, 3, 4] ∧
    [FaultCode.linkLost, .linkFailed, .frameMalformed, .overrun, .encoderSlip, .encoderStopped, .requestExpired,
      .outboundDrop].map FaultCode.code = [1, 2, 3, 4, 5, 6, 7, 8] ∧
    [Border.live, .forced, .held, .stale, .noSignal, .frozen].map Border.code = [0, 1, 2, 3, 4, 5] ∧
    [LinkState.down, .acquire, .verify, .locked, .failed].map LinkState.code = [0, 1, 2, 3, 4] ∧
    [ChanState.disabled, .unhomed, .homed, .running, .stopped, .slipped].map ChanState.code = [0, 1, 2, 3, 4, 5] ∧
    [AugerState.unknown, .inside, .outside].map AugerState.code = [0, 1, 2] ∧
    [AxisResult.valid, .edge, .poor, .notRun, .reference].map AxisResult.code = [1, 2, 3, 4, 5]) ∧
  ∀ (s : State) (node target : Byte) (number : Word) (value : BitVec 32) (w : What) (r : Result) (f : FaultCode)
    (subject count : Nat) (o : OutId) (c : CamId) (e : ChanId),
    let b (n : Nat) : Byte := BitVec.ofNat 8 n
    let two (v : Word) : List Byte := [v.extractLsb' 0 8, v.extractLsb' 8 8]
    let four (v : BitVec 32) : List Byte :=
      [v.extractLsb' 0 8, v.extractLsb' 8 8, v.extractLsb' 16 8, v.extractLsb' 24 8]
    let sends (m : Message) (offset : Nat) (bytes : List Byte) : Prop := m.offset = offset ∧ messageBytes s m = bytes
    let oc := s.output o
    let holder : Byte := (s.outGrant o).holder.elim 0xFF (fun h => b h.num)
    let priority : Byte := match (s.outGrant o).holder with
      | none => 0
      | some h => (s.entry? o h).elim 0 (fun x => b x.priority)
    let camera (verdict : Nat) (sx sy : Int) : List Byte :=
      [b c.num, b (s.link c).state.code, b verdict, b (s.screen c).rejectedRun] ++ two (BitVec.ofInt 16 sx) ++
        two (BitVec.ofInt 16 sy)
    let ready (k : SlotId) : Prop := (s.slot c k).state = .ready
    let ch := s.channel e
    sends (.requestResult node target w r) 8 [node, target, b w.code, b r.code] ∧
    (∀ a, oc.shown = .full a → sends (.viewStatus o) 9 [b o.num, holder, 0, b a.num, b a.num, b oc.win1.border.code,
      b oc.win1.border.code, priority]) ∧
    (∀ a a', oc.shown = .split a a' → sends (.viewStatus o) 9 [b o.num, holder, 1, b a.num, b a'.num, b oc.win1.border.code,
      b oc.win2.border.code, priority]) ∧
    ((∀ k ∈ (s.ring c).order, ¬ready k) → sends (.cameraStatus c) 10 (camera 0 0 0)) ∧
    (∀ older k newer x, (s.ring c).order = older ++ k :: newer → ready k → (∀ j ∈ newer, ¬ready j) →
      (s.slot c k).record = some x →
      let verdict : Nat := match x.verdict with | none => 0 | some .accepted => 1 | some .forced => 2
      let result (ax : Axis) : Nat := x.meas.elim 0 (fun m => (m.get ax).result.code)
      let shift := x.shift.getD ⟨0, 0⟩
      sends (.cameraStatus c) 10 (camera (verdict + 4 * result .x + 32 * result .y) shift.x shift.y)) ∧
    sends (.paramReply node number r value) 11 ([node] ++ two number ++ [b r.code] ++ four value) ∧
    sends (.encoderReport e) 12 ([b e.num, b (ch.state.code + 16 * ch.auger.code)] ++ four (BitVec.ofInt 32 ch.position) ++
      two (BitVec.ofNat 16 (ch.period.elim 0 (· / 100)))) ∧
    sends (.faultNotice f subject count) 13 ([b f.code, b subject] ++ two (BitVec.ofNat 16 count))

/-- The report timers, each due its period after its start or last expiry and moving on by that period: VIEW_STATUS_TIMER, 500
ms, asks for VIEW STATUS of A and then B; CAMERA_TIMER, 250 ms, for CAMERA STATUS of the camera whose turn it is, and the
turn goes round; ENCODER_TIMER, 250 ms, for ENCODER REPORT of the first enabled channel from the turn on, after which the
turn stands, or of none. Before its time a timer does nothing (R196, R197). -/
def Obligations.ReportTimers : Prop :=
  ∀ s : State, s.held = false →
    let mi := s.mi
    let since (t : Time) : Nat := (s.timebase - t).toNat
    let on (e : ChanId) : Prop := (s.chanParams e).enable = true
    let encoder (turn : ChanId) : State := { s with mi := { mi with encTimer := mi.encTimer + 250000, chanTurn := turn } }
    (since mi.viewTimer < 500000 → exec .viewStatusTimer s = .next (takeHead s)) ∧
    (500000 ≤ since mi.viewTimer → exec .viewStatusTimer s = .next (takeHead
      ((({ s with mi := { mi with viewTimer := mi.viewTimer + 500000 } }.ask (.viewStatus .a))).ask (.viewStatus .b)))) ∧
    (since mi.camTimer < 250000 → exec .cameraTimer s = .next (takeHead s)) ∧
    (250000 ≤ since mi.camTimer → ∀ next : CamId, next.num = (mi.camTurn.num + 1) % 4 →
      exec .cameraTimer s = .next (takeHead ({ s with mi := { mi with
        camTimer := mi.camTimer + 250000, camTurn := next } }.ask (.cameraStatus mi.camTurn)))) ∧
    (since mi.encTimer < 250000 → exec .encoderTimer s = .next (takeHead s)) ∧
    (250000 ≤ since mi.encTimer → (∀ e, ¬on e) →
      exec .encoderTimer s = .next (takeHead (encoder mi.chanTurn))) ∧
    ∀ (e next : ChanId) (i : Nat), 250000 ≤ since mi.encTimer → i < 3 → e.num = (mi.chanTurn.num + i) % 3 → on e →
      (∀ (d : ChanId) (j : Nat), j < i → d.num = (mi.chanTurn.num + j) % 3 → ¬on d) → next.num = (e.num + 1) % 3 →
      exec .encoderTimer s = .next (takeHead ((encoder next).ask (.encoderReport e)))

/-- The controller's events. FRAME_SENT empties the buffer and lowers the transmit error count; TRANSMIT_ERROR raises it by 8,
the frame offered again unless it had its last try; RECEIVE_ERROR raises the receive count to at most 255; the bus state
follows the counts, and above 255 transmit errors it is BUS_OFF: the buffered frame discarded and the entry counted.
BUS_JOIN turns JOINING into ERROR_ACTIVE, BUS_OFF_RECOVERY the 128th recessive run into ERROR_ACTIVE with both counts 0;
off the bus neither errors nor frames count, which for JOINING is read by inference (log entry 7). That a BUS_OFF_RECOVERY
brings a number of runs, which add up, is the model's choice (log entry 25) (R194, R200, R201). -/
def Obligations.BusEvents : Prop :=
  ∀ (s : State) (runs : Nat), s.held = false →
    let mi := s.mi
    let onBus : Prop := mi.busState = .errorActive ∨ mi.busState = .errorPassive
    let out (i : Instr) (mi' : Interface) : Prop := exec i s = .next (takeHead { s with mi := mi' })
    let counted (tx rx : Nat) (buffer : Option TxFrame) : Interface :=
      if 255 < tx then { mi with
        txErrors := tx, rxErrors := rx, busState := .busOff, txBuffer := none, busOffCount := bump mi.busOffCount
        recoveryRuns := 0 }
      else { mi with
        txErrors := tx, rxErrors := rx, txBuffer := buffer
        busState := if 127 < tx ∨ 127 < rx then .errorPassive else .errorActive }
    (∀ f, onBus → mi.txBuffer = some f →
      (mi.txErrors ≤ 255 → out .frameSent (counted (mi.txErrors - 1) mi.rxErrors none)) ∧
      out .transmitError (counted (mi.txErrors + 8) mi.rxErrors (if f.lastTry then none else some f))) ∧
    (¬onBus ∨ mi.txBuffer = none → out .frameSent mi ∧ out .transmitError mi) ∧
    (onBus → mi.txErrors ≤ 255 → out .receiveError (counted mi.txErrors (min (mi.rxErrors + 1) 255) mi.txBuffer)) ∧
    (¬onBus → out .receiveError mi) ∧
    (mi.busState = .joining → out .busJoin { mi with busState := .errorActive }) ∧
    (mi.busState ≠ .joining → out .busJoin mi) ∧
    (mi.busState = .busOff → mi.recoveryRuns + runs < 128 →
      out (.busOffRecovery runs) { mi with recoveryRuns := mi.recoveryRuns + runs }) ∧
    (mi.busState = .busOff → 128 ≤ mi.recoveryRuns + runs → out (.busOffRecovery runs) { mi with
      txErrors := 0, rxErrors := 0, busState := .errorActive, recoveryRuns := 0 }) ∧
    (mi.busState ≠ .busOff → out (.busOffRecovery runs) mi)

/-- Frames received without error on the bus lower the receive error count. KEEPALIVE from a known node does nothing besides
refreshing its last-heard time. A frame with an extended identifier, a remote frame, one whose identifier is none of base + 0
… base + 6 and one shorter than its kind is ignored and reaches no block; every other is the message of its kind with its
bytes as the layouts give them: that CAN_FRAME_IGNORED acts as the message its frame carries is the model's choice (log entry
8). Off the bus no frame is received, which for JOINING is read by inference (log entry 7) (R152, R186, R187, R200, R201). -/
def Obligations.InboundFrames : Prop :=
  ∀ (s : State) (f : CanFrame), s.held = false →
    let base := 0x200 + 32 * s.mi.idStrap.toNat
    let received : State := { s with mi := s.mi.withErrors s.mi.txErrors (s.mi.rxErrors - 1) }
    let ignored := exec (.canFrameIgnored f) s
    let byte (i : Nat) : Byte := f.data.getD i 0
    let word (i : Nat) : Word := byte (i + 1) ++ byte i
    let is (offset length : Nat) : Prop := f.extended = false ∧ f.remote = false ∧ f.ident = base + offset ∧
      length ≤ f.data.length
    (∀ node k, s.Hears node k → exec (.keepalive node) s = .next (takeHead { received with
      arbiter := { s.arbiter with lastHeard := s.arbiter.lastHeard.set k (some s.timebase) } })) ∧
    (s.mi.onBus = true → f.extended = true ∨ f.remote = true ∨ f.ident < base ∨ base + 6 < f.ident ∨ f.data = [] →
      ignored = .next (takeHead received)) ∧
    (∀ i n, s.mi.onBus = true → (i, n) ∈ [(0, 8), (1, 2), (2, 3), (3, 8), (4, 3), (5, 4), (6, 1)] →
      f.ident = base + i → f.data.length < n → ignored = .next (takeHead received)) ∧
    (is 0 8 → ignored = exec (.viewRequest (byte 0) (byte 1) (byte 2) (byte 3) (byte 4) (byte 5) (word 6)) s) ∧
    (is 1 2 → ignored = exec (.viewRelease (byte 0) (byte 1)) s) ∧
    (is 2 3 → ignored = (if byte 2 = 1 then exec (.freeze (byte 0) (byte 1)) s
      else exec (.unfreeze (byte 0) (byte 1) (byte 2)) s)) ∧
    (is 3 8 → ignored = exec (.paramWrite (byte 0) (word 1) (word 6 ++ word 4)) s) ∧
    (is 4 3 → ignored = exec (.paramRead (byte 0) (word 1)) s) ∧
    (is 5 4 → ignored = exec (.command (byte 0) (byte 1) (word 2)) s) ∧
    (is 6 1 → ignored = exec (.keepalive (byte 0)) s) ∧
    (s.mi.onBus = false → ignored = .next (takeHead s))
end

