-- ==== Sys2Proof/Laws/State.lean ====
section
/-! SUPPORT. The state's laws: for each named update, what it leaves in each field; for each record with one component a
member, what a component reads after a component was set. -/

namespace Sys2Proof

section
variable {α : Type}

@[simp] theorem PerCam.get_set (v : PerCam α) (c d : CamId) (a : α) :
    (v.set c a).get d = if d = c then a else v.get d := by cases c <;> cases d <;> rfl
@[simp] theorem PerChan.get_set (v : PerChan α) (c d : ChanId) (a : α) :
    (v.set c a).get d = if d = c then a else v.get d := by cases c <;> cases d <;> rfl
@[simp] theorem PerOut.get_set (v : PerOut α) (c d : OutId) (a : α) :
    (v.set c a).get d = if d = c then a else v.get d := by cases c <;> cases d <;> rfl
@[simp] theorem PerSlot.get_set (v : PerSlot α) (c d : SlotId) (a : α) :
    (v.set c a).get d = if d = c then a else v.get d := by cases c <;> cases d <;> rfl
@[simp] theorem PerReq.get_set (v : PerReq α) (c d : ReqSlot) (a : α) :
    (v.set c a).get d = if d = c then a else v.get d := by cases c <;> cases d <;> rfl
@[simp] theorem XY.get_set (v : XY α) (c d : Axis) (a : α) :
    (v.set c a).get d = if d = c then a else v.get d := by cases c <;> cases d <;> rfl

@[simp] theorem PerCam.set_get (v : PerCam α) (c : CamId) : v.set c (v.get c) = v := by cases c <;> rfl
@[simp] theorem PerChan.set_get (v : PerChan α) (c : ChanId) : v.set c (v.get c) = v := by cases c <;> rfl
@[simp] theorem PerOut.set_get (v : PerOut α) (c : OutId) : v.set c (v.get c) = v := by cases c <;> rfl

@[simp] theorem PerCam.set_set (v : PerCam α) (c : CamId) (a b : α) : (v.set c a).set c b = v.set c b := by
  cases c <;> rfl
@[simp] theorem PerChan.set_set (v : PerChan α) (c : ChanId) (a b : α) : (v.set c a).set c b = v.set c b := by
  cases c <;> rfl
@[simp] theorem PerOut.set_set (v : PerOut α) (c : OutId) (a b : α) : (v.set c a).set c b = v.set c b := by
  cases c <;> rfl

@[simp] theorem PerCam.get_same (a : α) (c : CamId) : (PerCam.same a).get c = a := by cases c <;> rfl
@[simp] theorem PerSlot.get_same (a : α) (k : SlotId) : (PerSlot.same a).get k = a := by cases k <;> rfl
@[simp] theorem PerReq.get_same (a : α) (k : ReqSlot) : (PerReq.same a).get k = a := by cases k <;> rfl
@[simp] theorem XY.get_same (a : α) (ax : Axis) : (XY.same a).get ax = a := by cases ax <;> rfl
@[simp] theorem XY.get_ofAxis (f : Axis → α) (ax : Axis) : (XY.ofAxis f).get ax = f ax := by cases ax <;> rfl

@[simp] theorem PerCam.get_map {β : Type} (f : α → β) (v : PerCam α) (c : CamId) : (v.map f).get c = f (v.get c) := by
  cases c <;> rfl
@[simp] theorem PerChan.get_map {β : Type} (f : α → β) (v : PerChan α) (c : ChanId) : (v.map f).get c = f (v.get c) := by
  cases c <;> rfl
@[simp] theorem PerOut.get_map {β : Type} (f : α → β) (v : PerOut α) (c : OutId) : (v.map f).get c = f (v.get c) := by
  cases c <;> rfl
@[simp] theorem PerSlot.get_map {β : Type} (f : α → β) (v : PerSlot α) (k : SlotId) : (v.map f).get k = f (v.get k) := by
  cases k <;> rfl

end

end Sys2Proof

namespace Sys2Proof.Machine

section
variable (s : State)

/-! ### setLink -/

@[simp] theorem State.setLink_pending (c : CamId) (v : Link) : (s.setLink c v).pending = s.pending := rfl
@[simp] theorem State.setLink_held (c : CamId) (v : Link) : (s.setLink c v).held = s.held := rfl
@[simp] theorem State.setLink_timebase (c : CamId) (v : Link) : (s.setLink c v).timebase = s.timebase := rfl
@[simp] theorem State.setLink_setup (c : CamId) (v : Link) : (s.setLink c v).setup = s.setup := rfl
@[simp] theorem State.setLink_params (c : CamId) (v : Link) : (s.setLink c v).params = s.params := rfl
@[simp] theorem State.setLink_links (c : CamId) (v : Link) : (s.setLink c v).links = s.links.set c v := rfl
@[simp] theorem State.setLink_rings (c : CamId) (v : Link) : (s.setLink c v).rings = s.rings := rfl
@[simp] theorem State.setLink_screens (c : CamId) (v : Link) : (s.setLink c v).screens = s.screens := rfl
@[simp] theorem State.setLink_contexts (c : CamId) (v : Link) : (s.setLink c v).contexts = s.contexts := rfl
@[simp] theorem State.setLink_engine (c : CamId) (v : Link) : (s.setLink c v).engine = s.engine := rfl
@[simp] theorem State.setLink_tables (c : CamId) (v : Link) : (s.setLink c v).tables = s.tables := rfl
@[simp] theorem State.setLink_channels (c : CamId) (v : Link) : (s.setLink c v).channels = s.channels := rfl
@[simp] theorem State.setLink_outputs (c : CamId) (v : Link) : (s.setLink c v).outputs = s.outputs := rfl
@[simp] theorem State.setLink_arbiter (c : CamId) (v : Link) : (s.setLink c v).arbiter = s.arbiter := rfl
@[simp] theorem State.setLink_stillUnit (c : CamId) (v : Link) : (s.setLink c v).stillUnit = s.stillUnit := rfl
@[simp] theorem State.setLink_mi (c : CamId) (v : Link) : (s.setLink c v).mi = s.mi := rfl

/-! ### setRing -/

@[simp] theorem State.setRing_pending (c : CamId) (v : Ring) : (s.setRing c v).pending = s.pending := rfl
@[simp] theorem State.setRing_held (c : CamId) (v : Ring) : (s.setRing c v).held = s.held := rfl
@[simp] theorem State.setRing_timebase (c : CamId) (v : Ring) : (s.setRing c v).timebase = s.timebase := rfl
@[simp] theorem State.setRing_setup (c : CamId) (v : Ring) : (s.setRing c v).setup = s.setup := rfl
@[simp] theorem State.setRing_params (c : CamId) (v : Ring) : (s.setRing c v).params = s.params := rfl
@[simp] theorem State.setRing_links (c : CamId) (v : Ring) : (s.setRing c v).links = s.links := rfl
@[simp] theorem State.setRing_rings (c : CamId) (v : Ring) : (s.setRing c v).rings = s.rings.set c v := rfl
@[simp] theorem State.setRing_screens (c : CamId) (v : Ring) : (s.setRing c v).screens = s.screens := rfl
@[simp] theorem State.setRing_contexts (c : CamId) (v : Ring) : (s.setRing c v).contexts = s.contexts := rfl
@[simp] theorem State.setRing_engine (c : CamId) (v : Ring) : (s.setRing c v).engine = s.engine := rfl
@[simp] theorem State.setRing_tables (c : CamId) (v : Ring) : (s.setRing c v).tables = s.tables := rfl
@[simp] theorem State.setRing_channels (c : CamId) (v : Ring) : (s.setRing c v).channels = s.channels := rfl
@[simp] theorem State.setRing_outputs (c : CamId) (v : Ring) : (s.setRing c v).outputs = s.outputs := rfl
@[simp] theorem State.setRing_arbiter (c : CamId) (v : Ring) : (s.setRing c v).arbiter = s.arbiter := rfl
@[simp] theorem State.setRing_stillUnit (c : CamId) (v : Ring) : (s.setRing c v).stillUnit = s.stillUnit := rfl
@[simp] theorem State.setRing_mi (c : CamId) (v : Ring) : (s.setRing c v).mi = s.mi := rfl

/-! ### setScreen -/

@[simp] theorem State.setScreen_pending (c : CamId) (v : Screen) : (s.setScreen c v).pending = s.pending := rfl
@[simp] theorem State.setScreen_held (c : CamId) (v : Screen) : (s.setScreen c v).held = s.held := rfl
@[simp] theorem State.setScreen_timebase (c : CamId) (v : Screen) : (s.setScreen c v).timebase = s.timebase := rfl
@[simp] theorem State.setScreen_setup (c : CamId) (v : Screen) : (s.setScreen c v).setup = s.setup := rfl
@[simp] theorem State.setScreen_params (c : CamId) (v : Screen) : (s.setScreen c v).params = s.params := rfl
@[simp] theorem State.setScreen_links (c : CamId) (v : Screen) : (s.setScreen c v).links = s.links := rfl
@[simp] theorem State.setScreen_rings (c : CamId) (v : Screen) : (s.setScreen c v).rings = s.rings := rfl
@[simp] theorem State.setScreen_screens (c : CamId) (v : Screen) : (s.setScreen c v).screens = s.screens.set c v := rfl
@[simp] theorem State.setScreen_contexts (c : CamId) (v : Screen) : (s.setScreen c v).contexts = s.contexts := rfl
@[simp] theorem State.setScreen_engine (c : CamId) (v : Screen) : (s.setScreen c v).engine = s.engine := rfl
@[simp] theorem State.setScreen_tables (c : CamId) (v : Screen) : (s.setScreen c v).tables = s.tables := rfl
@[simp] theorem State.setScreen_channels (c : CamId) (v : Screen) : (s.setScreen c v).channels = s.channels := rfl
@[simp] theorem State.setScreen_outputs (c : CamId) (v : Screen) : (s.setScreen c v).outputs = s.outputs := rfl
@[simp] theorem State.setScreen_arbiter (c : CamId) (v : Screen) : (s.setScreen c v).arbiter = s.arbiter := rfl
@[simp] theorem State.setScreen_stillUnit (c : CamId) (v : Screen) : (s.setScreen c v).stillUnit = s.stillUnit := rfl
@[simp] theorem State.setScreen_mi (c : CamId) (v : Screen) : (s.setScreen c v).mi = s.mi := rfl

/-! ### setContext -/

@[simp] theorem State.setContext_pending (c : CamId) (v : Context) : (s.setContext c v).pending = s.pending := rfl
@[simp] theorem State.setContext_held (c : CamId) (v : Context) : (s.setContext c v).held = s.held := rfl
@[simp] theorem State.setContext_timebase (c : CamId) (v : Context) : (s.setContext c v).timebase = s.timebase := rfl
@[simp] theorem State.setContext_setup (c : CamId) (v : Context) : (s.setContext c v).setup = s.setup := rfl
@[simp] theorem State.setContext_params (c : CamId) (v : Context) : (s.setContext c v).params = s.params := rfl
@[simp] theorem State.setContext_links (c : CamId) (v : Context) : (s.setContext c v).links = s.links := rfl
@[simp] theorem State.setContext_rings (c : CamId) (v : Context) : (s.setContext c v).rings = s.rings := rfl
@[simp] theorem State.setContext_screens (c : CamId) (v : Context) : (s.setContext c v).screens = s.screens := rfl
@[simp] theorem State.setContext_contexts (c : CamId) (v : Context) : (s.setContext c v).contexts = s.contexts.set c v := rfl
@[simp] theorem State.setContext_engine (c : CamId) (v : Context) : (s.setContext c v).engine = s.engine := rfl
@[simp] theorem State.setContext_tables (c : CamId) (v : Context) : (s.setContext c v).tables = s.tables := rfl
@[simp] theorem State.setContext_channels (c : CamId) (v : Context) : (s.setContext c v).channels = s.channels := rfl
@[simp] theorem State.setContext_outputs (c : CamId) (v : Context) : (s.setContext c v).outputs = s.outputs := rfl
@[simp] theorem State.setContext_arbiter (c : CamId) (v : Context) : (s.setContext c v).arbiter = s.arbiter := rfl
@[simp] theorem State.setContext_stillUnit (c : CamId) (v : Context) : (s.setContext c v).stillUnit = s.stillUnit := rfl
@[simp] theorem State.setContext_mi (c : CamId) (v : Context) : (s.setContext c v).mi = s.mi := rfl

/-! ### setEngine -/

@[simp] theorem State.setEngine_pending (v : Engine) : (s.setEngine v).pending = s.pending := rfl
@[simp] theorem State.setEngine_held (v : Engine) : (s.setEngine v).held = s.held := rfl
@[simp] theorem State.setEngine_timebase (v : Engine) : (s.setEngine v).timebase = s.timebase := rfl
@[simp] theorem State.setEngine_setup (v : Engine) : (s.setEngine v).setup = s.setup := rfl
@[simp] theorem State.setEngine_params (v : Engine) : (s.setEngine v).params = s.params := rfl
@[simp] theorem State.setEngine_links (v : Engine) : (s.setEngine v).links = s.links := rfl
@[simp] theorem State.setEngine_rings (v : Engine) : (s.setEngine v).rings = s.rings := rfl
@[simp] theorem State.setEngine_screens (v : Engine) : (s.setEngine v).screens = s.screens := rfl
@[simp] theorem State.setEngine_contexts (v : Engine) : (s.setEngine v).contexts = s.contexts := rfl
@[simp] theorem State.setEngine_engine (v : Engine) : (s.setEngine v).engine = v := rfl
@[simp] theorem State.setEngine_tables (v : Engine) : (s.setEngine v).tables = s.tables := rfl
@[simp] theorem State.setEngine_channels (v : Engine) : (s.setEngine v).channels = s.channels := rfl
@[simp] theorem State.setEngine_outputs (v : Engine) : (s.setEngine v).outputs = s.outputs := rfl
@[simp] theorem State.setEngine_arbiter (v : Engine) : (s.setEngine v).arbiter = s.arbiter := rfl
@[simp] theorem State.setEngine_stillUnit (v : Engine) : (s.setEngine v).stillUnit = s.stillUnit := rfl
@[simp] theorem State.setEngine_mi (v : Engine) : (s.setEngine v).mi = s.mi := rfl

/-! ### setTable -/

@[simp] theorem State.setTable_pending (c : CamId) (v : PhaseTable) : (s.setTable c v).pending = s.pending := rfl
@[simp] theorem State.setTable_held (c : CamId) (v : PhaseTable) : (s.setTable c v).held = s.held := rfl
@[simp] theorem State.setTable_timebase (c : CamId) (v : PhaseTable) : (s.setTable c v).timebase = s.timebase := rfl
@[simp] theorem State.setTable_setup (c : CamId) (v : PhaseTable) : (s.setTable c v).setup = s.setup := rfl
@[simp] theorem State.setTable_params (c : CamId) (v : PhaseTable) : (s.setTable c v).params = s.params := rfl
@[simp] theorem State.setTable_links (c : CamId) (v : PhaseTable) : (s.setTable c v).links = s.links := rfl
@[simp] theorem State.setTable_rings (c : CamId) (v : PhaseTable) : (s.setTable c v).rings = s.rings := rfl
@[simp] theorem State.setTable_screens (c : CamId) (v : PhaseTable) : (s.setTable c v).screens = s.screens := rfl
@[simp] theorem State.setTable_contexts (c : CamId) (v : PhaseTable) : (s.setTable c v).contexts = s.contexts := rfl
@[simp] theorem State.setTable_engine (c : CamId) (v : PhaseTable) : (s.setTable c v).engine = s.engine := rfl
@[simp] theorem State.setTable_tables (c : CamId) (v : PhaseTable) : (s.setTable c v).tables = s.tables.set c v := rfl
@[simp] theorem State.setTable_channels (c : CamId) (v : PhaseTable) : (s.setTable c v).channels = s.channels := rfl
@[simp] theorem State.setTable_outputs (c : CamId) (v : PhaseTable) : (s.setTable c v).outputs = s.outputs := rfl
@[simp] theorem State.setTable_arbiter (c : CamId) (v : PhaseTable) : (s.setTable c v).arbiter = s.arbiter := rfl
@[simp] theorem State.setTable_stillUnit (c : CamId) (v : PhaseTable) : (s.setTable c v).stillUnit = s.stillUnit := rfl
@[simp] theorem State.setTable_mi (c : CamId) (v : PhaseTable) : (s.setTable c v).mi = s.mi := rfl

/-! ### setChannel -/

@[simp] theorem State.setChannel_pending (e : ChanId) (v : Channel) : (s.setChannel e v).pending = s.pending := rfl
@[simp] theorem State.setChannel_held (e : ChanId) (v : Channel) : (s.setChannel e v).held = s.held := rfl
@[simp] theorem State.setChannel_timebase (e : ChanId) (v : Channel) : (s.setChannel e v).timebase = s.timebase := rfl
@[simp] theorem State.setChannel_setup (e : ChanId) (v : Channel) : (s.setChannel e v).setup = s.setup := rfl
@[simp] theorem State.setChannel_params (e : ChanId) (v : Channel) : (s.setChannel e v).params = s.params := rfl
@[simp] theorem State.setChannel_links (e : ChanId) (v : Channel) : (s.setChannel e v).links = s.links := rfl
@[simp] theorem State.setChannel_rings (e : ChanId) (v : Channel) : (s.setChannel e v).rings = s.rings := rfl
@[simp] theorem State.setChannel_screens (e : ChanId) (v : Channel) : (s.setChannel e v).screens = s.screens := rfl
@[simp] theorem State.setChannel_contexts (e : ChanId) (v : Channel) : (s.setChannel e v).contexts = s.contexts := rfl
@[simp] theorem State.setChannel_engine (e : ChanId) (v : Channel) : (s.setChannel e v).engine = s.engine := rfl
@[simp] theorem State.setChannel_tables (e : ChanId) (v : Channel) : (s.setChannel e v).tables = s.tables := rfl
@[simp] theorem State.setChannel_channels (e : ChanId) (v : Channel) : (s.setChannel e v).channels = s.channels.set e v := rfl
@[simp] theorem State.setChannel_outputs (e : ChanId) (v : Channel) : (s.setChannel e v).outputs = s.outputs := rfl
@[simp] theorem State.setChannel_arbiter (e : ChanId) (v : Channel) : (s.setChannel e v).arbiter = s.arbiter := rfl
@[simp] theorem State.setChannel_stillUnit (e : ChanId) (v : Channel) : (s.setChannel e v).stillUnit = s.stillUnit := rfl
@[simp] theorem State.setChannel_mi (e : ChanId) (v : Channel) : (s.setChannel e v).mi = s.mi := rfl

/-! ### setOutput -/

@[simp] theorem State.setOutput_pending (o : OutId) (v : Compositor) : (s.setOutput o v).pending = s.pending := rfl
@[simp] theorem State.setOutput_held (o : OutId) (v : Compositor) : (s.setOutput o v).held = s.held := rfl
@[simp] theorem State.setOutput_timebase (o : OutId) (v : Compositor) : (s.setOutput o v).timebase = s.timebase := rfl
@[simp] theorem State.setOutput_setup (o : OutId) (v : Compositor) : (s.setOutput o v).setup = s.setup := rfl
@[simp] theorem State.setOutput_params (o : OutId) (v : Compositor) : (s.setOutput o v).params = s.params := rfl
@[simp] theorem State.setOutput_links (o : OutId) (v : Compositor) : (s.setOutput o v).links = s.links := rfl
@[simp] theorem State.setOutput_rings (o : OutId) (v : Compositor) : (s.setOutput o v).rings = s.rings := rfl
@[simp] theorem State.setOutput_screens (o : OutId) (v : Compositor) : (s.setOutput o v).screens = s.screens := rfl
@[simp] theorem State.setOutput_contexts (o : OutId) (v : Compositor) : (s.setOutput o v).contexts = s.contexts := rfl
@[simp] theorem State.setOutput_engine (o : OutId) (v : Compositor) : (s.setOutput o v).engine = s.engine := rfl
@[simp] theorem State.setOutput_tables (o : OutId) (v : Compositor) : (s.setOutput o v).tables = s.tables := rfl
@[simp] theorem State.setOutput_channels (o : OutId) (v : Compositor) : (s.setOutput o v).channels = s.channels := rfl
@[simp] theorem State.setOutput_outputs (o : OutId) (v : Compositor) : (s.setOutput o v).outputs = s.outputs.set o v := rfl
@[simp] theorem State.setOutput_arbiter (o : OutId) (v : Compositor) : (s.setOutput o v).arbiter = s.arbiter := rfl
@[simp] theorem State.setOutput_stillUnit (o : OutId) (v : Compositor) : (s.setOutput o v).stillUnit = s.stillUnit := rfl
@[simp] theorem State.setOutput_mi (o : OutId) (v : Compositor) : (s.setOutput o v).mi = s.mi := rfl

/-! ### setArbiter -/

@[simp] theorem State.setArbiter_pending (v : Arbiter) : (s.setArbiter v).pending = s.pending := rfl
@[simp] theorem State.setArbiter_held (v : Arbiter) : (s.setArbiter v).held = s.held := rfl
@[simp] theorem State.setArbiter_timebase (v : Arbiter) : (s.setArbiter v).timebase = s.timebase := rfl
@[simp] theorem State.setArbiter_setup (v : Arbiter) : (s.setArbiter v).setup = s.setup := rfl
@[simp] theorem State.setArbiter_params (v : Arbiter) : (s.setArbiter v).params = s.params := rfl
@[simp] theorem State.setArbiter_links (v : Arbiter) : (s.setArbiter v).links = s.links := rfl
@[simp] theorem State.setArbiter_rings (v : Arbiter) : (s.setArbiter v).rings = s.rings := rfl
@[simp] theorem State.setArbiter_screens (v : Arbiter) : (s.setArbiter v).screens = s.screens := rfl
@[simp] theorem State.setArbiter_contexts (v : Arbiter) : (s.setArbiter v).contexts = s.contexts := rfl
@[simp] theorem State.setArbiter_engine (v : Arbiter) : (s.setArbiter v).engine = s.engine := rfl
@[simp] theorem State.setArbiter_tables (v : Arbiter) : (s.setArbiter v).tables = s.tables := rfl
@[simp] theorem State.setArbiter_channels (v : Arbiter) : (s.setArbiter v).channels = s.channels := rfl
@[simp] theorem State.setArbiter_outputs (v : Arbiter) : (s.setArbiter v).outputs = s.outputs := rfl
@[simp] theorem State.setArbiter_arbiter (v : Arbiter) : (s.setArbiter v).arbiter = v := rfl
@[simp] theorem State.setArbiter_stillUnit (v : Arbiter) : (s.setArbiter v).stillUnit = s.stillUnit := rfl
@[simp] theorem State.setArbiter_mi (v : Arbiter) : (s.setArbiter v).mi = s.mi := rfl

/-! ### setStillUnit -/

@[simp] theorem State.setStillUnit_pending (v : StillUnit) : (s.setStillUnit v).pending = s.pending := rfl
@[simp] theorem State.setStillUnit_held (v : StillUnit) : (s.setStillUnit v).held = s.held := rfl
@[simp] theorem State.setStillUnit_timebase (v : StillUnit) : (s.setStillUnit v).timebase = s.timebase := rfl
@[simp] theorem State.setStillUnit_setup (v : StillUnit) : (s.setStillUnit v).setup = s.setup := rfl
@[simp] theorem State.setStillUnit_params (v : StillUnit) : (s.setStillUnit v).params = s.params := rfl
@[simp] theorem State.setStillUnit_links (v : StillUnit) : (s.setStillUnit v).links = s.links := rfl
@[simp] theorem State.setStillUnit_rings (v : StillUnit) : (s.setStillUnit v).rings = s.rings := rfl
@[simp] theorem State.setStillUnit_screens (v : StillUnit) : (s.setStillUnit v).screens = s.screens := rfl
@[simp] theorem State.setStillUnit_contexts (v : StillUnit) : (s.setStillUnit v).contexts = s.contexts := rfl
@[simp] theorem State.setStillUnit_engine (v : StillUnit) : (s.setStillUnit v).engine = s.engine := rfl
@[simp] theorem State.setStillUnit_tables (v : StillUnit) : (s.setStillUnit v).tables = s.tables := rfl
@[simp] theorem State.setStillUnit_channels (v : StillUnit) : (s.setStillUnit v).channels = s.channels := rfl
@[simp] theorem State.setStillUnit_outputs (v : StillUnit) : (s.setStillUnit v).outputs = s.outputs := rfl
@[simp] theorem State.setStillUnit_arbiter (v : StillUnit) : (s.setStillUnit v).arbiter = s.arbiter := rfl
@[simp] theorem State.setStillUnit_stillUnit (v : StillUnit) : (s.setStillUnit v).stillUnit = v := rfl
@[simp] theorem State.setStillUnit_mi (v : StillUnit) : (s.setStillUnit v).mi = s.mi := rfl

/-! ### setMi -/

@[simp] theorem State.setMi_pending (v : Interface) : (s.setMi v).pending = s.pending := rfl
@[simp] theorem State.setMi_held (v : Interface) : (s.setMi v).held = s.held := rfl
@[simp] theorem State.setMi_timebase (v : Interface) : (s.setMi v).timebase = s.timebase := rfl
@[simp] theorem State.setMi_setup (v : Interface) : (s.setMi v).setup = s.setup := rfl
@[simp] theorem State.setMi_params (v : Interface) : (s.setMi v).params = s.params := rfl
@[simp] theorem State.setMi_links (v : Interface) : (s.setMi v).links = s.links := rfl
@[simp] theorem State.setMi_rings (v : Interface) : (s.setMi v).rings = s.rings := rfl
@[simp] theorem State.setMi_screens (v : Interface) : (s.setMi v).screens = s.screens := rfl
@[simp] theorem State.setMi_contexts (v : Interface) : (s.setMi v).contexts = s.contexts := rfl
@[simp] theorem State.setMi_engine (v : Interface) : (s.setMi v).engine = s.engine := rfl
@[simp] theorem State.setMi_tables (v : Interface) : (s.setMi v).tables = s.tables := rfl
@[simp] theorem State.setMi_channels (v : Interface) : (s.setMi v).channels = s.channels := rfl
@[simp] theorem State.setMi_outputs (v : Interface) : (s.setMi v).outputs = s.outputs := rfl
@[simp] theorem State.setMi_arbiter (v : Interface) : (s.setMi v).arbiter = s.arbiter := rfl
@[simp] theorem State.setMi_stillUnit (v : Interface) : (s.setMi v).stillUnit = s.stillUnit := rfl
@[simp] theorem State.setMi_mi (v : Interface) : (s.setMi v).mi = v := rfl

/-! ### setParams -/

@[simp] theorem State.setParams_pending (v : Params) : (s.setParams v).pending = s.pending := rfl
@[simp] theorem State.setParams_held (v : Params) : (s.setParams v).held = s.held := rfl
@[simp] theorem State.setParams_timebase (v : Params) : (s.setParams v).timebase = s.timebase := rfl
@[simp] theorem State.setParams_setup (v : Params) : (s.setParams v).setup = s.setup := rfl
@[simp] theorem State.setParams_params (v : Params) : (s.setParams v).params = v := rfl
@[simp] theorem State.setParams_links (v : Params) : (s.setParams v).links = s.links := rfl
@[simp] theorem State.setParams_rings (v : Params) : (s.setParams v).rings = s.rings := rfl
@[simp] theorem State.setParams_screens (v : Params) : (s.setParams v).screens = s.screens := rfl
@[simp] theorem State.setParams_contexts (v : Params) : (s.setParams v).contexts = s.contexts := rfl
@[simp] theorem State.setParams_engine (v : Params) : (s.setParams v).engine = s.engine := rfl
@[simp] theorem State.setParams_tables (v : Params) : (s.setParams v).tables = s.tables := rfl
@[simp] theorem State.setParams_channels (v : Params) : (s.setParams v).channels = s.channels := rfl
@[simp] theorem State.setParams_outputs (v : Params) : (s.setParams v).outputs = s.outputs := rfl
@[simp] theorem State.setParams_arbiter (v : Params) : (s.setParams v).arbiter = s.arbiter := rfl
@[simp] theorem State.setParams_stillUnit (v : Params) : (s.setParams v).stillUnit = s.stillUnit := rfl
@[simp] theorem State.setParams_mi (v : Params) : (s.setParams v).mi = s.mi := rfl

/-! ### What the accessors read after an update -/

@[simp] theorem State.setLink_link (c : CamId) (v : Link) (d : CamId) :
    (s.setLink c v).link d = if d = c then v else s.link d := by simp [State.link]
@[simp] theorem State.setRing_link (c : CamId) (v : Ring) (d : CamId) : (s.setRing c v).link d = s.link d := rfl
@[simp] theorem State.setScreen_link (c : CamId) (v : Screen) (d : CamId) : (s.setScreen c v).link d = s.link d := rfl
@[simp] theorem State.setContext_link (c : CamId) (v : Context) (d : CamId) : (s.setContext c v).link d = s.link d := rfl
@[simp] theorem State.setEngine_link (v : Engine) (d : CamId) : (s.setEngine v).link d = s.link d := rfl
@[simp] theorem State.setTable_link (c : CamId) (v : PhaseTable) (d : CamId) : (s.setTable c v).link d = s.link d := rfl
@[simp] theorem State.setChannel_link (e : ChanId) (v : Channel) (d : CamId) : (s.setChannel e v).link d = s.link d := rfl
@[simp] theorem State.setOutput_link (o : OutId) (v : Compositor) (d : CamId) : (s.setOutput o v).link d = s.link d := rfl
@[simp] theorem State.setArbiter_link (v : Arbiter) (d : CamId) : (s.setArbiter v).link d = s.link d := rfl
@[simp] theorem State.setStillUnit_link (v : StillUnit) (d : CamId) : (s.setStillUnit v).link d = s.link d := rfl
@[simp] theorem State.setMi_link (v : Interface) (d : CamId) : (s.setMi v).link d = s.link d := rfl
@[simp] theorem State.setParams_link (v : Params) (d : CamId) : (s.setParams v).link d = s.link d := rfl

@[simp] theorem State.setLink_ring (c : CamId) (v : Link) (d : CamId) : (s.setLink c v).ring d = s.ring d := rfl
@[simp] theorem State.setRing_ring (c : CamId) (v : Ring) (d : CamId) :
    (s.setRing c v).ring d = if d = c then v else s.ring d := by simp [State.ring]
@[simp] theorem State.setScreen_ring (c : CamId) (v : Screen) (d : CamId) : (s.setScreen c v).ring d = s.ring d := rfl
@[simp] theorem State.setContext_ring (c : CamId) (v : Context) (d : CamId) : (s.setContext c v).ring d = s.ring d := rfl
@[simp] theorem State.setEngine_ring (v : Engine) (d : CamId) : (s.setEngine v).ring d = s.ring d := rfl
@[simp] theorem State.setTable_ring (c : CamId) (v : PhaseTable) (d : CamId) : (s.setTable c v).ring d = s.ring d := rfl
@[simp] theorem State.setChannel_ring (e : ChanId) (v : Channel) (d : CamId) : (s.setChannel e v).ring d = s.ring d := rfl
@[simp] theorem State.setOutput_ring (o : OutId) (v : Compositor) (d : CamId) : (s.setOutput o v).ring d = s.ring d := rfl
@[simp] theorem State.setArbiter_ring (v : Arbiter) (d : CamId) : (s.setArbiter v).ring d = s.ring d := rfl
@[simp] theorem State.setStillUnit_ring (v : StillUnit) (d : CamId) : (s.setStillUnit v).ring d = s.ring d := rfl
@[simp] theorem State.setMi_ring (v : Interface) (d : CamId) : (s.setMi v).ring d = s.ring d := rfl
@[simp] theorem State.setParams_ring (v : Params) (d : CamId) : (s.setParams v).ring d = s.ring d := rfl

@[simp] theorem State.setLink_screen (c : CamId) (v : Link) (d : CamId) : (s.setLink c v).screen d = s.screen d := rfl
@[simp] theorem State.setRing_screen (c : CamId) (v : Ring) (d : CamId) : (s.setRing c v).screen d = s.screen d := rfl
@[simp] theorem State.setScreen_screen (c : CamId) (v : Screen) (d : CamId) :
    (s.setScreen c v).screen d = if d = c then v else s.screen d := by simp [State.screen]
@[simp] theorem State.setContext_screen (c : CamId) (v : Context) (d : CamId) : (s.setContext c v).screen d = s.screen d := rfl
@[simp] theorem State.setEngine_screen (v : Engine) (d : CamId) : (s.setEngine v).screen d = s.screen d := rfl
@[simp] theorem State.setTable_screen (c : CamId) (v : PhaseTable) (d : CamId) : (s.setTable c v).screen d = s.screen d := rfl
@[simp] theorem State.setChannel_screen (e : ChanId) (v : Channel) (d : CamId) : (s.setChannel e v).screen d = s.screen d := rfl
@[simp] theorem State.setOutput_screen (o : OutId) (v : Compositor) (d : CamId) : (s.setOutput o v).screen d = s.screen d := rfl
@[simp] theorem State.setArbiter_screen (v : Arbiter) (d : CamId) : (s.setArbiter v).screen d = s.screen d := rfl
@[simp] theorem State.setStillUnit_screen (v : StillUnit) (d : CamId) : (s.setStillUnit v).screen d = s.screen d := rfl
@[simp] theorem State.setMi_screen (v : Interface) (d : CamId) : (s.setMi v).screen d = s.screen d := rfl
@[simp] theorem State.setParams_screen (v : Params) (d : CamId) : (s.setParams v).screen d = s.screen d := rfl

@[simp] theorem State.setLink_context (c : CamId) (v : Link) (d : CamId) : (s.setLink c v).context d = s.context d := rfl
@[simp] theorem State.setRing_context (c : CamId) (v : Ring) (d : CamId) : (s.setRing c v).context d = s.context d := rfl
@[simp] theorem State.setScreen_context (c : CamId) (v : Screen) (d : CamId) : (s.setScreen c v).context d = s.context d := rfl
@[simp] theorem State.setContext_context (c : CamId) (v : Context) (d : CamId) :
    (s.setContext c v).context d = if d = c then v else s.context d := by simp [State.context]
@[simp] theorem State.setEngine_context (v : Engine) (d : CamId) : (s.setEngine v).context d = s.context d := rfl
@[simp] theorem State.setTable_context (c : CamId) (v : PhaseTable) (d : CamId) : (s.setTable c v).context d = s.context d := rfl
@[simp] theorem State.setChannel_context (e : ChanId) (v : Channel) (d : CamId) : (s.setChannel e v).context d = s.context d := rfl
@[simp] theorem State.setOutput_context (o : OutId) (v : Compositor) (d : CamId) : (s.setOutput o v).context d = s.context d := rfl
@[simp] theorem State.setArbiter_context (v : Arbiter) (d : CamId) : (s.setArbiter v).context d = s.context d := rfl
@[simp] theorem State.setStillUnit_context (v : StillUnit) (d : CamId) : (s.setStillUnit v).context d = s.context d := rfl
@[simp] theorem State.setMi_context (v : Interface) (d : CamId) : (s.setMi v).context d = s.context d := rfl
@[simp] theorem State.setParams_context (v : Params) (d : CamId) : (s.setParams v).context d = s.context d := rfl

@[simp] theorem State.setLink_table (c : CamId) (v : Link) (d : CamId) : (s.setLink c v).table d = s.table d := rfl
@[simp] theorem State.setRing_table (c : CamId) (v : Ring) (d : CamId) : (s.setRing c v).table d = s.table d := rfl
@[simp] theorem State.setScreen_table (c : CamId) (v : Screen) (d : CamId) : (s.setScreen c v).table d = s.table d := rfl
@[simp] theorem State.setContext_table (c : CamId) (v : Context) (d : CamId) : (s.setContext c v).table d = s.table d := rfl
@[simp] theorem State.setEngine_table (v : Engine) (d : CamId) : (s.setEngine v).table d = s.table d := rfl
@[simp] theorem State.setTable_table (c : CamId) (v : PhaseTable) (d : CamId) :
    (s.setTable c v).table d = if d = c then v else s.table d := by simp [State.table]
@[simp] theorem State.setChannel_table (e : ChanId) (v : Channel) (d : CamId) : (s.setChannel e v).table d = s.table d := rfl
@[simp] theorem State.setOutput_table (o : OutId) (v : Compositor) (d : CamId) : (s.setOutput o v).table d = s.table d := rfl
@[simp] theorem State.setArbiter_table (v : Arbiter) (d : CamId) : (s.setArbiter v).table d = s.table d := rfl
@[simp] theorem State.setStillUnit_table (v : StillUnit) (d : CamId) : (s.setStillUnit v).table d = s.table d := rfl
@[simp] theorem State.setMi_table (v : Interface) (d : CamId) : (s.setMi v).table d = s.table d := rfl
@[simp] theorem State.setParams_table (v : Params) (d : CamId) : (s.setParams v).table d = s.table d := rfl

@[simp] theorem State.setLink_channel (c : CamId) (v : Link) (g : ChanId) : (s.setLink c v).channel g = s.channel g := rfl
@[simp] theorem State.setRing_channel (c : CamId) (v : Ring) (g : ChanId) : (s.setRing c v).channel g = s.channel g := rfl
@[simp] theorem State.setScreen_channel (c : CamId) (v : Screen) (g : ChanId) : (s.setScreen c v).channel g = s.channel g := rfl
@[simp] theorem State.setContext_channel (c : CamId) (v : Context) (g : ChanId) : (s.setContext c v).channel g = s.channel g := rfl
@[simp] theorem State.setEngine_channel (v : Engine) (g : ChanId) : (s.setEngine v).channel g = s.channel g := rfl
@[simp] theorem State.setTable_channel (c : CamId) (v : PhaseTable) (g : ChanId) : (s.setTable c v).channel g = s.channel g := rfl
@[simp] theorem State.setChannel_channel (e : ChanId) (v : Channel) (g : ChanId) :
    (s.setChannel e v).channel g = if g = e then v else s.channel g := by simp [State.channel]
@[simp] theorem State.setOutput_channel (o : OutId) (v : Compositor) (g : ChanId) : (s.setOutput o v).channel g = s.channel g := rfl
@[simp] theorem State.setArbiter_channel (v : Arbiter) (g : ChanId) : (s.setArbiter v).channel g = s.channel g := rfl
@[simp] theorem State.setStillUnit_channel (v : StillUnit) (g : ChanId) : (s.setStillUnit v).channel g = s.channel g := rfl
@[simp] theorem State.setMi_channel (v : Interface) (g : ChanId) : (s.setMi v).channel g = s.channel g := rfl
@[simp] theorem State.setParams_channel (v : Params) (g : ChanId) : (s.setParams v).channel g = s.channel g := rfl

@[simp] theorem State.setLink_output (c : CamId) (v : Link) (q : OutId) : (s.setLink c v).output q = s.output q := rfl
@[simp] theorem State.setRing_output (c : CamId) (v : Ring) (q : OutId) : (s.setRing c v).output q = s.output q := rfl
@[simp] theorem State.setScreen_output (c : CamId) (v : Screen) (q : OutId) : (s.setScreen c v).output q = s.output q := rfl
@[simp] theorem State.setContext_output (c : CamId) (v : Context) (q : OutId) : (s.setContext c v).output q = s.output q := rfl
@[simp] theorem State.setEngine_output (v : Engine) (q : OutId) : (s.setEngine v).output q = s.output q := rfl
@[simp] theorem State.setTable_output (c : CamId) (v : PhaseTable) (q : OutId) : (s.setTable c v).output q = s.output q := rfl
@[simp] theorem State.setChannel_output (e : ChanId) (v : Channel) (q : OutId) : (s.setChannel e v).output q = s.output q := rfl
@[simp] theorem State.setOutput_output (o : OutId) (v : Compositor) (q : OutId) :
    (s.setOutput o v).output q = if q = o then v else s.output q := by simp [State.output]
@[simp] theorem State.setArbiter_output (v : Arbiter) (q : OutId) : (s.setArbiter v).output q = s.output q := rfl
@[simp] theorem State.setStillUnit_output (v : StillUnit) (q : OutId) : (s.setStillUnit v).output q = s.output q := rfl
@[simp] theorem State.setMi_output (v : Interface) (q : OutId) : (s.setMi v).output q = s.output q := rfl
@[simp] theorem State.setParams_output (v : Params) (q : OutId) : (s.setParams v).output q = s.output q := rfl

@[simp] theorem State.setLink_camParams (c : CamId) (v : Link) (d : CamId) : (s.setLink c v).camParams d = s.camParams d := rfl
@[simp] theorem State.setRing_camParams (c : CamId) (v : Ring) (d : CamId) : (s.setRing c v).camParams d = s.camParams d := rfl
@[simp] theorem State.setScreen_camParams (c : CamId) (v : Screen) (d : CamId) : (s.setScreen c v).camParams d = s.camParams d := rfl
@[simp] theorem State.setContext_camParams (c : CamId) (v : Context) (d : CamId) : (s.setContext c v).camParams d = s.camParams d := rfl
@[simp] theorem State.setEngine_camParams (v : Engine) (d : CamId) : (s.setEngine v).camParams d = s.camParams d := rfl
@[simp] theorem State.setTable_camParams (c : CamId) (v : PhaseTable) (d : CamId) : (s.setTable c v).camParams d = s.camParams d := rfl
@[simp] theorem State.setChannel_camParams (e : ChanId) (v : Channel) (d : CamId) : (s.setChannel e v).camParams d = s.camParams d := rfl
@[simp] theorem State.setOutput_camParams (o : OutId) (v : Compositor) (d : CamId) : (s.setOutput o v).camParams d = s.camParams d := rfl
@[simp] theorem State.setArbiter_camParams (v : Arbiter) (d : CamId) : (s.setArbiter v).camParams d = s.camParams d := rfl
@[simp] theorem State.setStillUnit_camParams (v : StillUnit) (d : CamId) : (s.setStillUnit v).camParams d = s.camParams d := rfl
@[simp] theorem State.setMi_camParams (v : Interface) (d : CamId) : (s.setMi v).camParams d = s.camParams d := rfl
@[simp] theorem State.setParams_camParams (v : Params) (d : CamId) : (s.setParams v).camParams d = v.cams.get d := rfl

@[simp] theorem State.setLink_chanParams (c : CamId) (v : Link) (g : ChanId) : (s.setLink c v).chanParams g = s.chanParams g := rfl
@[simp] theorem State.setRing_chanParams (c : CamId) (v : Ring) (g : ChanId) : (s.setRing c v).chanParams g = s.chanParams g := rfl
@[simp] theorem State.setScreen_chanParams (c : CamId) (v : Screen) (g : ChanId) : (s.setScreen c v).chanParams g = s.chanParams g := rfl
@[simp] theorem State.setContext_chanParams (c : CamId) (v : Context) (g : ChanId) : (s.setContext c v).chanParams g = s.chanParams g := rfl
@[simp] theorem State.setEngine_chanParams (v : Engine) (g : ChanId) : (s.setEngine v).chanParams g = s.chanParams g := rfl
@[simp] theorem State.setTable_chanParams (c : CamId) (v : PhaseTable) (g : ChanId) : (s.setTable c v).chanParams g = s.chanParams g := rfl
@[simp] theorem State.setChannel_chanParams (e : ChanId) (v : Channel) (g : ChanId) : (s.setChannel e v).chanParams g = s.chanParams g := rfl
@[simp] theorem State.setOutput_chanParams (o : OutId) (v : Compositor) (g : ChanId) : (s.setOutput o v).chanParams g = s.chanParams g := rfl
@[simp] theorem State.setArbiter_chanParams (v : Arbiter) (g : ChanId) : (s.setArbiter v).chanParams g = s.chanParams g := rfl
@[simp] theorem State.setStillUnit_chanParams (v : StillUnit) (g : ChanId) : (s.setStillUnit v).chanParams g = s.chanParams g := rfl
@[simp] theorem State.setMi_chanParams (v : Interface) (g : ChanId) : (s.setMi v).chanParams g = s.chanParams g := rfl
@[simp] theorem State.setParams_chanParams (v : Params) (g : ChanId) : (s.setParams v).chanParams g = v.chans.get g := rfl

@[simp] theorem State.setLink_outParams (c : CamId) (v : Link) (q : OutId) : (s.setLink c v).outParams q = s.outParams q := rfl
@[simp] theorem State.setRing_outParams (c : CamId) (v : Ring) (q : OutId) : (s.setRing c v).outParams q = s.outParams q := rfl
@[simp] theorem State.setScreen_outParams (c : CamId) (v : Screen) (q : OutId) : (s.setScreen c v).outParams q = s.outParams q := rfl
@[simp] theorem State.setContext_outParams (c : CamId) (v : Context) (q : OutId) : (s.setContext c v).outParams q = s.outParams q := rfl
@[simp] theorem State.setEngine_outParams (v : Engine) (q : OutId) : (s.setEngine v).outParams q = s.outParams q := rfl
@[simp] theorem State.setTable_outParams (c : CamId) (v : PhaseTable) (q : OutId) : (s.setTable c v).outParams q = s.outParams q := rfl
@[simp] theorem State.setChannel_outParams (e : ChanId) (v : Channel) (q : OutId) : (s.setChannel e v).outParams q = s.outParams q := rfl
@[simp] theorem State.setOutput_outParams (o : OutId) (v : Compositor) (q : OutId) : (s.setOutput o v).outParams q = s.outParams q := rfl
@[simp] theorem State.setArbiter_outParams (v : Arbiter) (q : OutId) : (s.setArbiter v).outParams q = s.outParams q := rfl
@[simp] theorem State.setStillUnit_outParams (v : StillUnit) (q : OutId) : (s.setStillUnit v).outParams q = s.outParams q := rfl
@[simp] theorem State.setMi_outParams (v : Interface) (q : OutId) : (s.setMi v).outParams q = s.outParams q := rfl
@[simp] theorem State.setParams_outParams (v : Params) (q : OutId) : (s.setParams v).outParams q = v.outs.get q := rfl

@[simp] theorem State.setLink_outGrant (c : CamId) (v : Link) (q : OutId) : (s.setLink c v).outGrant q = s.outGrant q := rfl
@[simp] theorem State.setRing_outGrant (c : CamId) (v : Ring) (q : OutId) : (s.setRing c v).outGrant q = s.outGrant q := rfl
@[simp] theorem State.setScreen_outGrant (c : CamId) (v : Screen) (q : OutId) : (s.setScreen c v).outGrant q = s.outGrant q := rfl
@[simp] theorem State.setContext_outGrant (c : CamId) (v : Context) (q : OutId) : (s.setContext c v).outGrant q = s.outGrant q := rfl
@[simp] theorem State.setEngine_outGrant (v : Engine) (q : OutId) : (s.setEngine v).outGrant q = s.outGrant q := rfl
@[simp] theorem State.setTable_outGrant (c : CamId) (v : PhaseTable) (q : OutId) : (s.setTable c v).outGrant q = s.outGrant q := rfl
@[simp] theorem State.setChannel_outGrant (e : ChanId) (v : Channel) (q : OutId) : (s.setChannel e v).outGrant q = s.outGrant q := rfl
@[simp] theorem State.setOutput_outGrant (o : OutId) (v : Compositor) (q : OutId) : (s.setOutput o v).outGrant q = s.outGrant q := rfl
@[simp] theorem State.setArbiter_outGrant (v : Arbiter) (q : OutId) : (s.setArbiter v).outGrant q = v.outs.get q := rfl
@[simp] theorem State.setStillUnit_outGrant (v : StillUnit) (q : OutId) : (s.setStillUnit v).outGrant q = s.outGrant q := rfl
@[simp] theorem State.setMi_outGrant (v : Interface) (q : OutId) : (s.setMi v).outGrant q = s.outGrant q := rfl
@[simp] theorem State.setParams_outGrant (v : Params) (q : OutId) : (s.setParams v).outGrant q = s.outGrant q := rfl

@[simp] theorem State.setLink_requests (c : CamId) (v : Link) (q : OutId) : (s.setLink c v).requests q = s.requests q := rfl
@[simp] theorem State.setRing_requests (c : CamId) (v : Ring) (q : OutId) : (s.setRing c v).requests q = s.requests q := rfl
@[simp] theorem State.setScreen_requests (c : CamId) (v : Screen) (q : OutId) : (s.setScreen c v).requests q = s.requests q := rfl
@[simp] theorem State.setContext_requests (c : CamId) (v : Context) (q : OutId) : (s.setContext c v).requests q = s.requests q := rfl
@[simp] theorem State.setEngine_requests (v : Engine) (q : OutId) : (s.setEngine v).requests q = s.requests q := rfl
@[simp] theorem State.setTable_requests (c : CamId) (v : PhaseTable) (q : OutId) : (s.setTable c v).requests q = s.requests q := rfl
@[simp] theorem State.setChannel_requests (e : ChanId) (v : Channel) (q : OutId) : (s.setChannel e v).requests q = s.requests q := rfl
@[simp] theorem State.setOutput_requests (o : OutId) (v : Compositor) (q : OutId) : (s.setOutput o v).requests q = s.requests q := rfl
@[simp] theorem State.setArbiter_requests (v : Arbiter) (q : OutId) : (s.setArbiter v).requests q = v.table.get q := rfl
@[simp] theorem State.setStillUnit_requests (v : StillUnit) (q : OutId) : (s.setStillUnit v).requests q = s.requests q := rfl
@[simp] theorem State.setMi_requests (v : Interface) (q : OutId) : (s.setMi v).requests q = s.requests q := rfl
@[simp] theorem State.setParams_requests (v : Params) (q : OutId) : (s.setParams v).requests q = s.requests q := rfl

@[simp] theorem State.setLink_still (c : CamId) (v : Link) (q : OutId) : (s.setLink c v).still q = s.still q := rfl
@[simp] theorem State.setRing_still (c : CamId) (v : Ring) (q : OutId) : (s.setRing c v).still q = s.still q := rfl
@[simp] theorem State.setScreen_still (c : CamId) (v : Screen) (q : OutId) : (s.setScreen c v).still q = s.still q := rfl
@[simp] theorem State.setContext_still (c : CamId) (v : Context) (q : OutId) : (s.setContext c v).still q = s.still q := rfl
@[simp] theorem State.setEngine_still (v : Engine) (q : OutId) : (s.setEngine v).still q = s.still q := rfl
@[simp] theorem State.setTable_still (c : CamId) (v : PhaseTable) (q : OutId) : (s.setTable c v).still q = s.still q := rfl
@[simp] theorem State.setChannel_still (e : ChanId) (v : Channel) (q : OutId) : (s.setChannel e v).still q = s.still q := rfl
@[simp] theorem State.setOutput_still (o : OutId) (v : Compositor) (q : OutId) : (s.setOutput o v).still q = s.still q := rfl
@[simp] theorem State.setArbiter_still (v : Arbiter) (q : OutId) : (s.setArbiter v).still q = s.still q := rfl
@[simp] theorem State.setStillUnit_still (v : StillUnit) (q : OutId) : (s.setStillUnit v).still q = v.stills.get q := rfl
@[simp] theorem State.setMi_still (v : Interface) (q : OutId) : (s.setMi v).still q = s.still q := rfl
@[simp] theorem State.setParams_still (v : Params) (q : OutId) : (s.setParams v).still q = s.still q := rfl

end

end Sys2Proof.Machine
end

