-- ==== Sys2Proof/Laws/Queue.lean ====
section
/-! SUPPORT. The outbound queue: what placing a message does, and that asking and taking keep its form. -/

namespace Sys2Proof.Machine

@[simp] theorem State.ask_mi (s : State) (m : Message) : (s.ask m).mi = s.mi.place m := rfl

theorem queued_iff {m : Message} {q : List Message} : queued m q = true ↔ m.key ∈ q.map Message.key := by
  simp [queued]

theorem queued_false_iff {m : Message} {q : List Message} : queued m q = false ↔ m.key ∉ q.map Message.key := by
  rw [← queued_iff]; simp

/-- Replacing in place keeps every entry's key. -/
theorem replaceIn_keys (m : Message) (q : List Message) : (replaceIn m q).map Message.key = q.map Message.key := by
  simp only [replaceIn, List.map_map]
  apply List.map_congr_left
  intro e _
  simp only [Function.comp]
  split
  · rename_i h; exact h.symm
  · rfl

@[simp] theorem replaceIn_length (m : Message) (q : List Message) : (replaceIn m q).length = q.length := by
  simp [replaceIn]

/-- What placing a message does: it replaces the entry of its key, joins the tail of a queue with room, or is dropped. -/
theorem Interface.place_cases (mi : Interface) (m : Message) :
    (queued m mi.queue = true ∧ mi.place m = { mi with queue := replaceIn m mi.queue }) ∨
    (queued m mi.queue = false ∧ mi.queue.length < 8 ∧ mi.place m = { mi with queue := mi.queue ++ [m] }) ∨
    (queued m mi.queue = false ∧ 8 ≤ mi.queue.length ∧ queued (dropNotice (bump mi.dropCount)) mi.queue = true ∧
      mi.place m = { mi with
        dropCount := bump mi.dropCount, queue := replaceIn (dropNotice (bump mi.dropCount)) mi.queue }) ∨
    (queued m mi.queue = false ∧ 8 ≤ mi.queue.length ∧ queued (dropNotice (bump mi.dropCount)) mi.queue = false ∧
      mi.place m = { mi with dropCount := bump mi.dropCount, dropPending := true }) := by
  unfold Interface.place
  cases h : queued m mi.queue
  · by_cases h8 : mi.queue.length < 8
    · simp [h8]
    · cases hd : queued (dropNotice (bump mi.dropCount)) mi.queue
      · simp [h8, hd]; omega
      · simp [h8, hd]; omega
  · simp

/-- Placing a message that is no OUTBOUND_DROP notice keeps the queue's form. -/
theorem Interface.place_ok {mi : Interface} {m : Message} (hm : m.key ≠ (dropNotice 0).key) (h : mi.QueueOk) :
    (mi.place m).QueueOk := by
  obtain ⟨h8, hn, hd⟩ := h
  have hk : ∀ n, (dropNotice n).key = (dropNotice 0).key := fun _ => rfl
  rcases mi.place_cases m with ⟨_, e⟩ | ⟨hq, hl, e⟩ | ⟨_, _, _, e⟩ | ⟨_, _, hq, e⟩ <;> rw [e]
  · refine ⟨by simpa using h8, by simpa [replaceIn_keys] using hn, fun hp => ?_⟩
    have := hd hp
    rw [queued_false_iff] at this ⊢
    simpa [replaceIn_keys] using this
  · refine ⟨by simp; omega, ?_, fun hp => ?_⟩
    · rw [queued_false_iff] at hq
      simp only [List.map_append, List.map_cons, List.map_nil]
      rw [List.nodup_append]
      refine ⟨hn, by simp, ?_⟩
      intro a ha b hb hab
      simp only [List.mem_singleton] at hb
      exact hq (hb ▸ hab ▸ ha)
    · have := hd hp
      rw [queued_false_iff] at this ⊢
      simp only [List.map_append, List.map_cons, List.map_nil, List.mem_append, List.mem_singleton, not_or]
      exact ⟨this, fun hh => hm hh.symm⟩
  · refine ⟨by simpa using h8, by simpa [replaceIn_keys] using hn, fun hp => ?_⟩
    have := hd hp
    rw [queued_false_iff] at this ⊢
    simpa [replaceIn_keys] using this
  · refine ⟨h8, hn, fun _ => ?_⟩
    rw [queued_false_iff] at hq ⊢
    exact hq

/-! ### Asking -/

theorem Interface.Asked.refl (a : Interface) : a.Asked a := ⟨[], by simp, rfl⟩

theorem Interface.Asked.trans {a b c : Interface} (h : a.Asked b) (g : b.Asked c) : a.Asked c := by
  obtain ⟨ms, h1, rfl⟩ := h
  obtain ⟨ns, h2, rfl⟩ := g
  refine ⟨ms ++ ns, ?_, by simp⟩
  intro m hm
  rcases List.mem_append.1 hm with h | h
  · exact h1 m h
  · exact h2 m h

/-- Asking for one message. -/
theorem Interface.Asked.one (a : Interface) {m : Message} (hm : m.key ≠ (dropNotice 0).key) : a.Asked (a.place m) :=
  ⟨[m], by simpa using hm, rfl⟩

/-- Asking keeps the queue's form. -/
theorem Interface.Asked.ok {a b : Interface} (h : a.Asked b) (ha : a.QueueOk) : b.QueueOk := by
  obtain ⟨ms, hm, rfl⟩ := h
  induction ms generalizing a with
  | nil => exact ha
  | cons m ms ih =>
    exact ih (Interface.place_ok (hm m (by simp)) ha) (fun k hk => hm k (by simp [hk]))

/-- What placing leaves alone. -/
theorem Interface.place_rest (mi : Interface) (m : Message) :
    mi.place m = { mi with
      queue := (mi.place m).queue, dropCount := (mi.place m).dropCount, dropPending := (mi.place m).dropPending } := by
  rcases mi.place_cases m with ⟨_, e⟩ | ⟨_, _, e⟩ | ⟨_, _, _, e⟩ | ⟨_, _, _, e⟩ <;> rw [e]

/-- What asking leaves alone: all of the interface but queue, drop count and drop-pending. -/
theorem Interface.Asked.rest {a b : Interface} (h : a.Asked b) :
    b = { a with queue := b.queue, dropCount := b.dropCount, dropPending := b.dropPending } := by
  obtain ⟨ms, -, rfl⟩ := h
  induction ms using List.reverseRecOn with
  | nil => rfl
  | append_singleton ms m ih =>
    simp only [List.foldl_append, List.foldl_cons, List.foldl_nil]
    rw [Interface.place_rest, ih]

/-! ### Taking the head -/

/-- What taking the head does: nothing, or the head's bytes go into the empty buffer and an owed notice takes the freed
place (R193, R194). -/
theorem takeHead_cases (s : State) :
    takeHead s = s ∨
    ∃ m rest, s.mi.onBus = true ∧ s.mi.txBuffer = none ∧ s.mi.queue = m :: rest ∧
      takeHead s = s.setMi { s.mi with
        queue := rest ++ s.mi.owed, txBuffer := some (txFrame s m), dropPending := false } := by
  unfold takeHead
  split
  · rename_i h
    simp only [Bool.and_eq_true, Option.isNone_iff_eq_none] at h
    split
    · exact .inl rfl
    · rename_i m rest hq
      exact .inr ⟨m, rest, h.1, h.2, hq, rfl⟩
  · exact .inl rfl

/-- Taking the head keeps the queue's form. -/
theorem takeHead_ok {s : State} (h : s.mi.QueueOk) : (takeHead s).mi.QueueOk := by
  rcases takeHead_cases s with e | ⟨m, rest, -, -, hq, e⟩ <;> rw [e]
  · exact h
  · obtain ⟨h8, hn, hd⟩ := h
    rw [hq] at h8 hn hd
    have hr : (rest.map Message.key).Nodup := by simpa using (List.nodup_cons.1 (by simpa using hn)).2
    refine ⟨?_, ?_, by simp⟩
    · simp only [State.setMi_mi, Interface.owed]
      split <;> simp at h8 ⊢ <;> omega
    · simp only [State.setMi_mi, Interface.owed]
      split
      · rename_i hp
        have := queued_false_iff.1 (hd hp)
        simp only [List.map_cons, List.mem_cons, not_or] at this
        simp only [List.map_append, List.map_cons, List.map_nil]
        rw [List.nodup_append]
        refine ⟨hr, by simp, ?_⟩
        intro a ha b hb hab
        simp only [List.mem_singleton] at hb
        exact this.2 ((hb ▸ hab ▸ ha : (dropNotice s.mi.dropCount).key ∈ _))
      · simpa using hr

/-- Taking the head changes the interface alone. -/
theorem takeHead_rest (s : State) : takeHead s = s.setMi (takeHead s).mi := by
  rcases takeHead_cases s with e | ⟨m, rest, -, -, -, e⟩ <;> rw [e] <;> rfl

end Sys2Proof.Machine
end

