-- ==== Sys2Proof/Laws/ViewFrames.lean ====
section
/-! SUPPORT. Output, still, arbiter and encoder operations stay within their frames: from a state within the frame of
`s`, each leads to a state within the frame of `s`. -/

namespace Sys2Proof.Machine

/-! ### Pins (R50, R135) -/

theorem PerSlot.ext_get {α : Type} {v w : PerSlot α} (h : ∀ k, v.get k = w.get k) : v = w := by
  cases v; cases w
  have h0 := h .s0; have h1 := h .s1; have h2 := h .s2; have h3 := h .s3; have h4 := h .s4; have h5 := h .s5
  simp only [PerSlot.get] at h0 h1 h2 h3 h4 h5
  subst h0 h1 h2 h3 h4 h5
  rfl

/-- A change of one slot's pin count is no change apart from pins. -/
theorem Ring.apartFromPins_set (r : Ring) (k : SlotId) (n : Nat) :
    Ring.apartFromPins { r with slots := r.slots.set k { r.slots.get k with pins := n } } = r.apartFromPins := by
  unfold Ring.apartFromPins
  congr 1
  apply PerSlot.ext_get
  intro j
  simp only [PerSlot.get_map, PerSlot.get_set]
  split
  · rename_i h; subst h; rfl
  · rfl

/-! ### Output frame -/

namespace State.OutputFrame

variable {s t : State}

theorem refl (s : State) : s.OutputFrame s :=
  { pending := rfl, held := rfl, timebase := rfl, setup := rfl, params := rfl, links := rfl, rings := fun _ => rfl
    screens := rfl, contexts := rfl, engine := rfl, tables := rfl, mi := .refl _, channels := rfl, arbiter := rfl }

theorem trans {u : State} (h : s.OutputFrame t) (g : t.OutputFrame u) : s.OutputFrame u :=
  { pending := g.pending.trans h.pending, held := g.held.trans h.held, timebase := g.timebase.trans h.timebase
    setup := g.setup.trans h.setup, params := g.params.trans h.params, links := g.links.trans h.links
    rings := fun c => (g.rings c).trans (h.rings c), screens := g.screens.trans h.screens
    contexts := g.contexts.trans h.contexts, engine := g.engine.trans h.engine, tables := g.tables.trans h.tables
    mi := h.mi.trans g.mi, channels := g.channels.trans h.channels, arbiter := g.arbiter.trans h.arbiter }

theorem setOutput (h : s.OutputFrame t) (o : OutId) (v : Compositor) : s.OutputFrame (t.setOutput o v) :=
  h.trans (refl t |> fun f => { f with })
theorem setStillUnit (h : s.OutputFrame t) (v : StillUnit) : s.OutputFrame (t.setStillUnit v) :=
  h.trans (refl t |> fun f => { f with })
theorem setStill (h : s.OutputFrame t) (o : OutId) (v : Still) : s.OutputFrame (t.setStill o v) := h.setStillUnit _
theorem ask (h : s.OutputFrame t) {m : Message} (hm : m.key ≠ (dropNotice 0).key) : s.OutputFrame (t.ask m) :=
  h.trans { refl t with mi := .one _ hm }
theorem setPins (h : s.OutputFrame t) (c : CamId) (k : SlotId) (n : Nat) :
    s.OutputFrame (t.setSlot c k { t.slot c k with pins := n }) := by
  refine h.trans { refl t with rings := fun d => ?_ }
  simp only [State.setSlot, State.slot, State.setRing_ring]
  split
  · rename_i e; subst e; exact Ring.apartFromPins_set _ _ _
  · rfl
theorem pinSlot (h : s.OutputFrame t) (c : CamId) (k : SlotId) : s.OutputFrame (t.pinSlot c k) := h.setPins c k _
theorem unpinSlot (h : s.OutputFrame t) (c : CamId) (k : SlotId) : s.OutputFrame (t.unpinSlot c k) := h.setPins c k _

/-! ### Compositors -/

theorem releasePin (h : s.OutputFrame t) (w : Window) : s.OutputFrame (t.releasePin w) := by
  unfold State.releasePin
  split
  · exact h
  · exact h.unpinSlot _ _
theorem selectFor (h : s.OutputFrame t) (w : Window) (c : CamId) : s.OutputFrame (t.selectFor w c).1 := by
  unfold State.selectFor
  split
  · split
    · exact h
    · exact (h.pinSlot _ _).releasePin _
  · split
    · exact h
    · exact h.releasePin _
theorem showStill (h : s.OutputFrame t) (o : OutId) : s.OutputFrame (t.showStill o) :=
  ((h.releasePin _).releasePin _).setOutput _ _
theorem showLive (h : s.OutputFrame t) (o : OutId) : s.OutputFrame (t.showLive o) := by
  unfold State.showLive
  dsimp only
  split
  · exact ((h.selectFor _ _).releasePin _).setOutput _ _
  · exact ((h.selectFor _ _).selectFor _ _).setOutput _ _
theorem setUpFrame (h : s.OutputFrame t) (o : OutId) : s.OutputFrame (t.setUpFrame o) := by
  unfold State.setUpFrame
  dsimp only
  split
  · exact (h.setOutput _ _).showStill _
  · exact (h.setOutput _ _).showLive _
theorem outputFrame (h : s.OutputFrame t) (o : OutId) : s.OutputFrame (t.outputFrame o) := by
  unfold State.outputFrame
  dsimp only
  split
  · exact (h.setUpFrame o).ask (m := .viewStatus o) (by simp [Message.key, dropNotice])
  · exact h.setUpFrame o
theorem handGrant (h : s.OutputFrame t) (o : OutId) (g : Option View) : s.OutputFrame (t.handGrant o g) :=
  h.setOutput _ _
theorem setFrozen (h : s.OutputFrame t) (o : OutId) (f : Bool) : s.OutputFrame (t.setFrozen o f) := h.setOutput _ _

/-! ### Still unit -/

theorem answer (h : s.OutputFrame t) (node target : Byte) (w : What) (r : Result) :
    s.OutputFrame (t.answer node target w r) := h.ask (by simp [Message.key, dropNotice])
theorem answerFreeze (h : s.OutputFrame t) (r : CopyRecord) (res : Result) : s.OutputFrame (t.answerFreeze r res) :=
  h.answer _ _ _ _
theorem pinSource (h : s.OutputFrame t) (w : WinSource) : s.OutputFrame (t.pinSource w) := by
  unfold State.pinSource
  split
  · exact h
  · exact h.pinSlot _ _
theorem unpinSource (h : s.OutputFrame t) (w : WinSource) : s.OutputFrame (t.unpinSource w) := by
  unfold State.unpinSource
  split
  · exact h
  · exact h.unpinSlot _ _
theorem pinSources (h : s.OutputFrame t) (ws : List WinSource) : s.OutputFrame (ws.foldl State.pinSource t) := by
  induction ws generalizing t with
  | nil => exact h
  | cons w ws ih => exact ih (h.pinSource w)
theorem unpinSources (h : s.OutputFrame t) (ws : List WinSource) : s.OutputFrame (ws.foldl State.unpinSource t) := by
  induction ws generalizing t with
  | nil => exact h
  | cons w ws ih => exact ih (h.unpinSource w)
theorem startCopy (h : s.OutputFrame t) (r : CopyRecord) (src : Sources) : s.OutputFrame (t.startCopy r src) :=
  ((h.setStill _ _).setStillUnit _).pinSources _
theorem startFrom (h : s.OutputFrame t) (rs : List CopyRecord) : s.OutputFrame (t.startFrom rs) := by
  induction rs generalizing t with
  | nil => exact h.setStillUnit _
  | cons r rs ih =>
    unfold State.startFrom
    dsimp only
    split
    · exact (h.setStillUnit _).startCopy _ _
    · exact ih (h.answerFreeze _ _)
theorem startPending (h : s.OutputFrame t) : s.OutputFrame t.startPending := by
  unfold State.startPending
  split
  · exact h.startFrom _
  · exact h
theorem stopCopy (h : s.OutputFrame t) (src : Sources) : s.OutputFrame (t.stopCopy src) :=
  (h.unpinSources _).setStillUnit _
theorem completeCopy (h : s.OutputFrame t) : s.OutputFrame t.completeCopy := by
  unfold State.completeCopy
  split
  · exact h
  · exact ((((h.setStill _ _).stopCopy _).setFrozen _ _).answerFreeze _ _).startPending
theorem endCopy (h : s.OutputFrame t) (o : OutId) (res : Result) (f : Still → Still) :
    s.OutputFrame (t.endCopy o res f) := by
  unfold State.endCopy
  split
  · exact ((h.setStillUnit _).setStill _ _).answerFreeze _ _
  · exact (((h.stopCopy _).setStill _ _).answerFreeze _ _).startPending
  · exact h
theorem abortCopy (h : s.OutputFrame t) (o : OutId) : s.OutputFrame (t.abortCopy o) := h.endCopy _ _ _
theorem cancelCopy (h : s.OutputFrame t) (o : OutId) : s.OutputFrame (t.cancelCopy o) := h.endCopy _ _ _
theorem freeze (h : s.OutputFrame t) (node : Byte) (k : ReqSlot) (o : OutId) : s.OutputFrame (t.freeze node k o) := by
  unfold State.freeze
  split
  · exact h.answer _ _ _ _
  · split
    · exact (h.setStillUnit _).startPending
    · exact h.answer _ _ _ _
theorem unfreeze (h : s.OutputFrame t) (node : Byte) (o : OutId) : s.OutputFrame (t.unfreeze node o) := by
  unfold State.unfreeze
  split
  · exact (h.cancelCopy _).answer _ _ _ _
  · split
    · exact (h.setFrozen _ _).answer _ _ _ _
    · exact h.answer _ _ _ _

end State.OutputFrame

/-! ### Arbiter -/

namespace State.ViewFrame

variable {s t : State}

theorem refl (s : State) : s.ViewFrame s := (State.OutputFrame.refl s).toViewFrame

theorem trans {u : State} (h : s.ViewFrame t) (g : t.ViewFrame u) : s.ViewFrame u :=
  { pending := g.pending.trans h.pending, held := g.held.trans h.held, timebase := g.timebase.trans h.timebase
    setup := g.setup.trans h.setup, params := g.params.trans h.params, links := g.links.trans h.links
    rings := fun c => (g.rings c).trans (h.rings c), screens := g.screens.trans h.screens
    contexts := g.contexts.trans h.contexts, engine := g.engine.trans h.engine, tables := g.tables.trans h.tables
    mi := h.mi.trans g.mi, channels := g.channels.trans h.channels }

theorem setArbiter (h : s.ViewFrame t) (v : Arbiter) : s.ViewFrame (t.setArbiter v) :=
  h.trans (refl t |> fun f => { f with })
theorem setEntry (h : s.ViewFrame t) (o : OutId) (r : Requester) (e : Option Entry) :
    s.ViewFrame (t.setEntry o r e) := h.setArbiter _
theorem setOutGrant (h : s.ViewFrame t) (o : OutId) (g : OutGrant) : s.ViewFrame (t.setOutGrant o g) := h.setArbiter _
theorem ask (h : s.ViewFrame t) {m : Message} (hm : m.key ≠ (dropNotice 0).key) : s.ViewFrame (t.ask m) :=
  h.trans ((State.OutputFrame.refl t).ask hm).toViewFrame
theorem viewStatus (h : s.ViewFrame t) (o : OutId) : s.ViewFrame (t.ask (.viewStatus o)) :=
  h.ask (by simp [Message.key, dropNotice])
theorem answer (h : s.ViewFrame t) (node target : Byte) (w : What) (r : Result) :
    s.ViewFrame (t.answer node target w r) := h.ask (by simp [Message.key, dropNotice])
theorem notice (h : s.ViewFrame t) {code : FaultCode} (hc : code ≠ .outboundDrop) (subject count : Nat) :
    s.ViewFrame (t.notice code subject count) := h.ask (by simp [Message.key, dropNotice, hc])
theorem refresh (h : s.ViewFrame t) (k : ReqSlot) : s.ViewFrame (t.refresh k) := h.setArbiter _
theorem formCandidate (h : s.ViewFrame t) (o : OutId) : s.ViewFrame (t.formCandidate o) := h.setOutGrant _ _
theorem grantChange (h : s.ViewFrame t) (o : OutId) : s.ViewFrame (t.grantChange o) :=
  ((h.trans (((State.OutputFrame.refl t).handGrant _ _).abortCopy _).toViewFrame).viewStatus _).setOutGrant _ _
theorem grantTo (h : s.ViewFrame t) (o : OutId) (r : Requester) : s.ViewFrame (t.grantTo o r) :=
  ((h.setOutGrant _ _).formCandidate _).grantChange _
theorem grantDefault (h : s.ViewFrame t) (o : OutId) : s.ViewFrame (t.grantDefault o) :=
  (h.setOutGrant _ _).grantChange _
theorem grantBest (h : s.ViewFrame t) (o : OutId) : s.ViewFrame (t.grantBest o) := by
  unfold State.grantBest
  split
  · exact h.grantTo _ _
  · exact h.grantDefault _
theorem afterReceipt (h : s.ViewFrame t) (o : OutId) (r : Requester) (e : Entry) :
    s.ViewFrame (t.afterReceipt o r e) := by
  unfold State.afterReceipt
  dsimp only
  split
  · exact h.grantTo _ _
  · split
    · split
      · exact h.grantTo _ _
      · exact h.grantBest _
    · split
      · exact h.grantBest _
      · split
        · exact h.grantTo _ _
        · exact h.formCandidate _
theorem receive (h : s.ViewFrame t) (o : OutId) (r : Requester) (v : View) (p hold : Nat) :
    s.ViewFrame (t.receive o r v p hold) := ((h.setArbiter _).setEntry _ _ _).afterReceipt _ _ _
theorem afterRemoval (h : s.ViewFrame t) (o : OutId) (r : Requester) : s.ViewFrame (t.afterRemoval o r) := by
  unfold State.afterRemoval
  split
  · exact h.grantBest _
  · exact h.formCandidate _
theorem remove (h : s.ViewFrame t) (o : OutId) (r : Requester) : s.ViewFrame (t.remove o r) := by
  unfold State.remove
  split
  · exact h
  · exact (h.setEntry _ _ _).afterRemoval _ _
theorem dwellElapsed (h : s.ViewFrame t) (o : OutId) : s.ViewFrame (t.dwellElapsed o) := by
  unfold State.dwellElapsed
  split
  · exact h.grantTo _ _
  · exact h.setOutGrant _ _
theorem dwellWritten (h : s.ViewFrame t) (o : OutId) : s.ViewFrame (t.dwellWritten o) := by
  unfold State.dwellWritten
  split
  · exact h.dwellElapsed _
  · split
    · exact h.setOutGrant _ _
    · exact h
theorem dropPersistent (h : s.ViewFrame t) (k : ReqSlot) (o : OutId) : s.ViewFrame (t.dropPersistent k o) := by
  unfold State.dropPersistent
  split
  · exact h.setEntry _ _ _
  · exact h
theorem afterExpiry (h : s.ViewFrame t) (o : OutId) (r : Requester) : s.ViewFrame (t.afterExpiry o r) := by
  unfold State.afterExpiry
  split
  · split
    · exact (h.grantDefault _).grantTo _ _
    · exact h.grantDefault _
  · exact h.formCandidate _
theorem expire (h : s.ViewFrame t) (k : ReqSlot) : s.ViewFrame (t.expire k) := by
  unfold State.expire
  dsimp only
  have h1 := (((h.dropPersistent k .a).dropPersistent k .b).setArbiter
    { ((t.dropPersistent k .a).dropPersistent k .b).arbiter with
      expiryCount := ((t.dropPersistent k .a).dropPersistent k .b).arbiter.expiryCount.set k
        (bump (((t.dropPersistent k .a).dropPersistent k .b).arbiter.expiryCount.get k)) }).notice
    (code := .requestExpired) (by decide) k.num
    (bump (((t.dropPersistent k .a).dropPersistent k .b).arbiter.expiryCount.get k))
  split
  · split
    · exact (h1.afterExpiry _ _).afterExpiry _ _
    · exact h1.afterExpiry _ _
  · split
    · exact h1.afterExpiry _ _
    · exact h1
theorem keepaliveWritten (h : s.ViewFrame t) (k : ReqSlot) : s.ViewFrame (t.keepaliveWritten k) := by
  unfold State.keepaliveWritten
  split
  · exact h
  · split
    · exact h.expire _
    · exact h
theorem nodeCodeChanged (h : s.ViewFrame t) (k : ReqSlot) : s.ViewFrame (t.nodeCodeChanged k) :=
  ((h.remove _ _).remove _ _).setArbiter _
theorem afterLowering (h : s.ViewFrame t) (o : OutId) (r : Requester) (e : Entry) :
    s.ViewFrame (t.afterLowering o r e) := by
  unfold State.afterLowering
  split
  · split
    · exact (h.viewStatus _).formCandidate _
    · exact h.grantBest _
  · exact h.formCandidate _
theorem lowerEntry (h : s.ViewFrame t) (k : ReqSlot) (p : Nat) (o : OutId) : s.ViewFrame (t.lowerEntry k p o) := by
  unfold State.lowerEntry
  split
  · exact h
  · dsimp only
    split
    · exact (h.setEntry _ _ _).afterLowering _ _ _
    · exact h
theorem maxPriorityLowered (h : s.ViewFrame t) (k : ReqSlot) (p : Nat) : s.ViewFrame (t.maxPriorityLowered k p) :=
  (h.lowerEntry _ _ _).lowerEntry _ _ _
theorem augerCreate (h : s.ViewFrame t) : s.ViewFrame t.augerCreate := h.receive _ _ _ _ _
theorem augerRemove (h : s.ViewFrame t) : s.ViewFrame t.augerRemove := (h.remove _ _).remove _ _
theorem augerChanged (h : s.ViewFrame t) (a b : AugerState) : s.ViewFrame (t.augerChanged a b) := by
  unfold State.augerChanged
  split
  · split
    · exact h.augerCreate
    · exact h
  · split
    · exact h.augerRemove
    · exact h
theorem augerPriorityChanged (h : s.ViewFrame t) : s.ViewFrame t.augerPriorityChanged := by
  unfold State.augerPriorityChanged
  split
  · exact h.augerRemove
  · split
    · exact h.augerCreate
    · exact h
theorem augerCameraChanged (h : s.ViewFrame t) : s.ViewFrame t.augerCameraChanged := by
  unfold State.augerCameraChanged
  split
  · exact h.augerCreate
  · exact h
theorem augerOutputChanged (h : s.ViewFrame t) : s.ViewFrame t.augerOutputChanged := by
  unfold State.augerOutputChanged
  split
  · exact h.augerRemove.augerCreate
  · exact h

end State.ViewFrame

/-! ### Encoder channels -/

namespace State.MachineFrame

variable {s t : State}

theorem refl (s : State) : s.MachineFrame s := (State.ViewFrame.refl s).toMachineFrame

theorem trans {u : State} (h : s.MachineFrame t) (g : t.MachineFrame u) : s.MachineFrame u :=
  { pending := g.pending.trans h.pending, held := g.held.trans h.held, timebase := g.timebase.trans h.timebase
    setup := g.setup.trans h.setup, params := g.params.trans h.params, links := g.links.trans h.links
    rings := fun c => (g.rings c).trans (h.rings c), screens := g.screens.trans h.screens
    contexts := g.contexts.trans h.contexts, engine := g.engine.trans h.engine, tables := g.tables.trans h.tables
    mi := h.mi.trans g.mi }

theorem setChannel (h : s.MachineFrame t) (e : ChanId) (v : Channel) : s.MachineFrame (t.setChannel e v) :=
  h.trans (refl t |> fun f => { f with })
theorem ask (h : s.MachineFrame t) {m : Message} (hm : m.key ≠ (dropNotice 0).key) : s.MachineFrame (t.ask m) :=
  h.trans ((State.ViewFrame.refl t).ask hm).toMachineFrame
theorem notice (h : s.MachineFrame t) {code : FaultCode} (hc : code ≠ .outboundDrop) (subject count : Nat) :
    s.MachineFrame (t.notice code subject count) := h.ask (by simp [Message.key, dropNotice, hc])
theorem augerChanged (h : s.MachineFrame t) (a b : AugerState) : s.MachineFrame (t.augerChanged a b) :=
  h.trans ((State.ViewFrame.refl t).augerChanged a b).toMachineFrame
theorem changeChannel (h : s.MachineFrame t) (e : ChanId) (ch : Channel) : s.MachineFrame (t.changeChannel e ch) := by
  unfold State.changeChannel
  dsimp only
  have h1 := h.setChannel e ch
  have h2 : s.MachineFrame (if (t.channel e).state ≠ ch.state ∨ (t.channel e).auger ≠ ch.auger then
      (t.setChannel e ch).ask (.encoderReport e) else t.setChannel e ch) := by
    split
    · exact h1.ask (by simp [Message.key, dropNotice])
    · exact h1
  split
  · exact h2.augerChanged _ _
  · exact h2
theorem noticeRise (h : s.MachineFrame t) (e : ChanId) {code : FaultCode} (hc : code ≠ .outboundDrop) (b : Bool)
    (n : Nat) : s.MachineFrame (t.noticeRise e code b n) := by
  unfold State.noticeRise
  split
  · exact h.notice hc _ _
  · exact h
theorem stopChannel (h : s.MachineFrame t) (e : ChanId) : s.MachineFrame (t.stopChannel e) :=
  (h.notice (by decide) _ _).changeChannel _ _
theorem clearPosition (h : s.MachineFrame t) (e : ChanId) : s.MachineFrame (t.clearPosition e) := h.changeChannel _ _
theorem armIndex (h : s.MachineFrame t) (e : ChanId) : s.MachineFrame (t.armIndex e) := h.setChannel _ _
theorem releaseCapture (h : s.MachineFrame t) (e : ChanId) : s.MachineFrame (t.releaseCapture e) := h.setChannel _ _
theorem clearChannelCounts (h : s.MachineFrame t) (e : ChanId) : s.MachineFrame (t.clearChannelCounts e) :=
  h.setChannel _ _
theorem enableChannel (h : s.MachineFrame t) (e : ChanId) : s.MachineFrame (t.enableChannel e) := h.changeChannel _ _
theorem disableChannel (h : s.MachineFrame t) (e : ChanId) : s.MachineFrame (t.disableChannel e) := h.changeChannel _ _
theorem reboundPosition (h : s.MachineFrame t) (e : ChanId) : s.MachineFrame (t.reboundPosition e) := by
  unfold State.reboundPosition
  dsimp only
  split
  · exact h.setChannel _ _
  · exact h
theorem maxPeriodWritten (h : s.MachineFrame t) (e : ChanId) : s.MachineFrame (t.maxPeriodWritten e) := by
  unfold State.maxPeriodWritten
  split
  · exact h
  · split
    · exact h.stopChannel _
    · exact h
theorem thresholdWritten (h : s.MachineFrame t) (e : ChanId) : s.MachineFrame (t.thresholdWritten e) :=
  h.changeChannel _ _
theorem whenBit (h : s.MachineFrame t) (bits : Word) (i : Nat) {f : State → State}
    (hf : ∀ u, s.MachineFrame u → s.MachineFrame (f u)) : s.MachineFrame (Machine.whenBit bits i f t) := by
  unfold Machine.whenBit
  split
  · exact hf _ h
  · exact h
theorem encoderCommands (h : s.MachineFrame t) (e : ChanId) (bits : Word) :
    s.MachineFrame (Machine.encoderCommands e bits t) :=
  (((h.whenBit bits 0 (fun _ g => g.clearPosition e)).whenBit bits 1 (fun _ g => g.armIndex e)).whenBit bits 2
    (fun _ g => g.releaseCapture e)).whenBit bits 3 (fun _ g => g.clearChannelCounts e)

end State.MachineFrame

end Sys2Proof.Machine
end

