-- ==== Sys2Proof/Laws/Arbitration.lean ====
section
/-! SUPPORT. Arbitration: the best entry, what a grant changes in the arbiter, and that every arbiter operation keeps the
holder an entry of the highest priority. -/

namespace Sys2Proof.Machine

/-! ### The table -/

@[simp] theorem Requests.get_set (t : Requests) (r q : Requester) (e : Option Entry) :
    (t.set r e).get q = if q = r then e else t.get q := by
  cases r with
  | auger => cases q <;> simp [Requests.set, Requests.get]
  | master k => cases q <;> simp [Requests.set, Requests.get]

theorem requester_mem_all (r : Requester) : r ∈ Requester.all := by
  cases r with
  | auger => simp [Requester.all]
  | master k => cases k <;> simp [Requester.all, ReqSlot.all]

theorem Requests.mem_entries (t : Requests) (r : Requester) (e : Entry) : (r, e) ∈ t.entries ↔ t.get r = some e := by
  simp only [Requests.entries, List.mem_filterMap, Option.map_eq_some_iff]
  constructor
  · rintro ⟨q, -, a, h, heq⟩
    cases heq
    exact h
  · intro h
    exact ⟨r, requester_mem_all r, e, h, rfl⟩

/-- The best of some entries is one of them, and none has a higher priority (R158). -/
theorem bestOf_spec {l : List (Requester × Entry)} {b : Requester × Entry} (h : bestOf l = some b) :
    b ∈ l ∧ ∀ e ∈ l, e.2.priority ≤ b.2.priority := by
  induction l generalizing b with
  | nil => cases h
  | cons a l ih =>
    unfold bestOf at h
    cases hb : bestOf l with
    | none =>
      simp only [hb, Option.some.injEq] at h
      subst h
      have hl : l = [] := by
        cases l with
        | nil => rfl
        | cons x l =>
          unfold bestOf at hb
          cases hx : bestOf l <;> simp only [hx] at hb
          · cases hb
          · split at hb <;> cases hb
      subst hl
      simp
    | some c =>
      simp only [hb] at h
      obtain ⟨hc, hm⟩ := ih hb
      split at h
      · rename_i hr
        simp only [Option.some.injEq] at h
        subst h
        have hp : c.2.priority ≤ a.2.priority := by
          simp only [ranksAbove, Bool.or_eq_true, decide_eq_true_eq, Bool.and_eq_true] at hr
          rcases hr with hr | hr <;> omega
        refine ⟨by simp, fun e he => ?_⟩
        rcases List.mem_cons.1 he with rfl | he
        · exact le_refl _
        · exact le_trans (hm e he) hp
      · rename_i hr
        simp only [Option.some.injEq] at h
        subst h
        have hp : a.2.priority ≤ c.2.priority := by
          simp only [ranksAbove, Bool.or_eq_true, decide_eq_true_eq, Bool.and_eq_true, not_or] at hr
          omega
        refine ⟨by simp [hc], fun e he => ?_⟩
        rcases List.mem_cons.1 he with rfl | he
        · exact hp
        · exact hm e he

theorem bestOf_none {l : List (Requester × Entry)} (h : bestOf l = none) : l = [] := by
  cases l with
  | nil => rfl
  | cons a l =>
    unfold bestOf at h
    cases hb : bestOf l <;> simp only [hb] at h
    · cases h
    · split at h <;> cases h

/-- A candidate is another entry of the holder's priority (R161). -/
theorem Requests.candidateFor_spec {t : Requests} {g : OutGrant} {r : Requester} (h : t.candidateFor g = some r) :
    ∃ hd he e, g.holder = some hd ∧ t.get hd = some he ∧ t.get r = some e ∧ e.priority = he.priority ∧ r ≠ hd := by
  unfold Requests.candidateFor at h
  split at h
  · cases h
  · rename_i hd hh
    split at h
    · cases h
    · rename_i he hg
      obtain ⟨b, hb, rfl⟩ := Option.map_eq_some_iff.1 h
      have hm := (bestOf_spec hb).1
      obtain ⟨hin, hp⟩ := List.mem_filter.1 hm
      simp only [ne_eq, Bool.and_eq_true, decide_eq_true_eq, decide_not, Bool.not_eq_true'] at hp
      exact ⟨hd, he, b.2, hh, hg, (t.mem_entries _ _).1 hin, hp.1.2, by simpa using hp.1.1⟩

/-- The highest priority among the other entries bounds each of them. -/
theorem Requests.othersPriority_le {t : Requests} {r q : Requester} {e : Entry} (h : t.get q = some e) (hq : q ≠ r) :
    e.priority ≤ t.othersPriority r := by
  unfold Requests.othersPriority
  have hm : (q, e) ∈ t.entries.filter (fun e => decide (e.1 ≠ r)) :=
    List.mem_filter.2 ⟨(t.mem_entries _ _).2 h, by simpa using hq⟩
  cases hb : bestOf (t.entries.filter (fun e => decide (e.1 ≠ r))) with
  | none => rw [bestOf_none hb] at hm; cases hm
  | some b => exact (bestOf_spec hb).2 _ hm

/-! ### What the operations do to the arbiter -/

/-- A grant change moves nothing in the arbiter but the output's grant count (R165). -/
theorem State.grantChange_arbiter (s : State) (o : OutId) :
    (s.grantChange o).arbiter = { s.arbiter with
      outs := s.arbiter.outs.set o { s.outGrant o with grantCount := bump (s.outGrant o).grantCount } } := by
  have h : ((s.handGrant o (s.grantedView o)).abortCopy o).arbiter = s.arbiter :=
    (((State.OutputFrame.refl s).handGrant o _).abortCopy o).arbiter
  have h' : (((s.handGrant o (s.grantedView o)).abortCopy o).ask (.viewStatus o)).arbiter = s.arbiter := h
  simp only [State.grantChange, State.setOutGrant, State.setArbiter_arbiter, State.outGrant, h']

/-- A grant gives the output to requester `r` and forms the candidate afresh; the table and the other output stay. -/
theorem State.grantTo_arbiter (s : State) (o : OutId) (r : Requester) :
    ∃ g : OutGrant, g.holder = some r ∧ g.candidate = (s.requests o).candidateFor g ∧
      (s.grantTo o r).arbiter = { s.arbiter with outs := s.arbiter.outs.set o g } := by
  refine ⟨{ s.outGrant o with
      holder := some r, grantTime := s.timebase, dwellRunning := decide (0 < s.params.dwell)
      grantOrder := s.arbiter.receipts
      candidate := (s.requests o).candidateFor { s.outGrant o with
        holder := some r, grantTime := s.timebase, dwellRunning := decide (0 < s.params.dwell)
        grantOrder := s.arbiter.receipts }
      grantCount := bump (s.outGrant o).grantCount }, rfl, rfl, ?_⟩
  unfold State.grantTo
  dsimp only
  rw [State.grantChange_arbiter]
  simp [State.formCandidate, State.setOutGrant, State.outGrant, State.requests]

/-- The grant of its default view leaves the output without holder and candidate; the table and the other output stay. -/
theorem State.grantDefault_arbiter (s : State) (o : OutId) :
    (s.grantDefault o).arbiter = { s.arbiter with outs := s.arbiter.outs.set o { s.outGrant o with
      holder := none, dwellRunning := false, candidate := none, grantCount := bump (s.outGrant o).grantCount } } := by
  unfold State.grantDefault
  rw [State.grantChange_arbiter]
  simp [State.setOutGrant, State.outGrant]

theorem State.grantDefault_requests (s : State) (o q : OutId) : (s.grantDefault o).requests q = s.requests q := by
  simp [State.requests, State.grantDefault_arbiter]

/-- The parts of the arbiter that an output's holder rule reads, for every output but `o`, are as before. -/
def SameElsewhere (o : OutId) (s t : State) : Prop :=
  ∀ q, q ≠ o → t.requests q = s.requests q ∧ t.outGrant q = s.outGrant q

theorem SameElsewhere.refl (o : OutId) (s : State) : SameElsewhere o s s := fun _ _ => ⟨rfl, rfl⟩
theorem SameElsewhere.trans {o : OutId} {s t u : State} (h : SameElsewhere o s t) (g : SameElsewhere o t u) :
    SameElsewhere o s u := fun q hq => ⟨(g q hq).1.trans (h q hq).1, (g q hq).2.trans (h q hq).2⟩

theorem State.setOutGrant_elsewhere (s : State) (o : OutId) (g : OutGrant) : SameElsewhere o s (s.setOutGrant o g) :=
  fun q hq => ⟨rfl, by simp [State.setOutGrant, State.outGrant, hq]⟩
theorem State.setEntry_elsewhere (s : State) (o : OutId) (r : Requester) (e : Option Entry) :
    SameElsewhere o s (s.setEntry o r e) :=
  fun q hq => ⟨by simp [State.setEntry, State.setRequests, State.requests, hq], rfl⟩
theorem State.grantTo_elsewhere (s : State) (o : OutId) (r : Requester) : SameElsewhere o s (s.grantTo o r) := by
  obtain ⟨g, -, -, h⟩ := s.grantTo_arbiter o r
  exact fun q hq => ⟨by simp [State.requests, h], by simp [State.outGrant, h, hq]⟩
theorem State.grantChange_elsewhere (s : State) (o : OutId) : SameElsewhere o s (s.grantChange o) :=
  fun q hq => ⟨by simp [State.requests, State.grantChange_arbiter],
    by simp [State.outGrant, State.grantChange_arbiter, hq]⟩
theorem State.formCandidate_elsewhere (s : State) (o : OutId) : SameElsewhere o s (s.formCandidate o) :=
  s.setOutGrant_elsewhere o _
theorem State.grantDefault_elsewhere (s : State) (o : OutId) : SameElsewhere o s (s.grantDefault o) :=
  (s.setOutGrant_elsewhere o _).trans (State.grantChange_elsewhere _ o)
theorem State.grantBest_elsewhere (s : State) (o : OutId) : SameElsewhere o s (s.grantBest o) := by
  unfold State.grantBest
  split
  · exact s.grantTo_elsewhere o _
  · exact s.grantDefault_elsewhere o

/-! ### The holder rule at an output -/

/-- The holder rule at output `o`. -/
def State.HolderAt (s : State) (o : OutId) : Prop := HolderOk (s.requests o) (s.outGrant o)

/-- The holder rule at `o` but for the candidate: the table and the holder agree. -/
def State.TopAt (s : State) (o : OutId) : Prop :=
  match (s.outGrant o).holder with
  | none => ∀ r : Requester, (s.requests o).get r = none
  | some h => ∃ e, (s.requests o).get h = some e ∧ ∀ r e', (s.requests o).get r = some e' → e'.priority ≤ e.priority

theorem State.HolderAt.of_same {s t : State} {o : OutId} (h : s.HolderAt o) (hr : t.requests o = s.requests o)
    (hg : t.outGrant o = s.outGrant o) : t.HolderAt o := by
  unfold State.HolderAt; rw [hr, hg]; exact h

theorem State.HolderAt.top {s : State} {o : OutId} (h : s.HolderAt o) : s.TopAt o := by
  unfold State.HolderAt HolderOk at h
  unfold State.TopAt
  cases hh : (s.outGrant o).holder with
  | none => simp only [hh] at h ⊢; exact h.1
  | some r =>
    simp only [hh] at h ⊢
    obtain ⟨e, h1, h2, -⟩ := h
    exact ⟨e, h1, h2⟩

/-- An output whose requester `r` has an entry of the highest priority, after a grant to `r`. -/
theorem State.grantTo_holder {s : State} {o : OutId} {r : Requester} {e : Entry}
    (he : (s.requests o).get r = some e) (hm : ∀ q e', (s.requests o).get q = some e' → e'.priority ≤ e.priority) :
    (s.grantTo o r).HolderAt o := by
  obtain ⟨g, h1, h2, h3⟩ := s.grantTo_arbiter o r
  have hr : (s.grantTo o r).requests o = s.requests o := by simp [State.requests, h3]
  have hg : (s.grantTo o r).outGrant o = g := by simp [State.outGrant, h3]
  unfold State.HolderAt HolderOk
  rw [hr, hg, h1]
  refine ⟨e, he, hm, fun q hq => ?_⟩
  rw [h2] at hq
  obtain ⟨hd, he', e', a1, a2, a3, a4, a5⟩ := Requests.candidateFor_spec hq
  rw [h1] at a1
  cases a1
  rw [he] at a2
  cases a2
  exact ⟨e', a3, a4, a5⟩

/-- The holder rule after a grant to the best entry of the output. -/
theorem State.grantTo_best_holder {s : State} {o : OutId} {b : Requester × Entry}
    (hb : bestOf (s.requests o).entries = some b) : (s.grantTo o b.1).HolderAt o := by
  obtain ⟨hin, hm⟩ := bestOf_spec hb
  exact State.grantTo_holder ((Requests.mem_entries _ _ _).1 hin)
    (fun q e' hq => hm (q, e') ((Requests.mem_entries _ _ _).2 hq))

/-- The holder rule after an output without entries was granted its default view. -/
theorem State.grantDefault_holder {s : State} {o : OutId} (hb : bestOf (s.requests o).entries = none) :
    (s.grantDefault o).HolderAt o := by
  have hn : ∀ r, (s.requests o).get r = none := by
    intro r
    cases hr : (s.requests o).get r with
    | none => rfl
    | some e =>
      have := (Requests.mem_entries _ r e).2 hr
      rw [bestOf_none hb] at this
      cases this
  have hg : (s.grantDefault o).outGrant o = { s.outGrant o with
      holder := none, dwellRunning := false, candidate := none, grantCount := bump (s.outGrant o).grantCount } := by
    simp [State.outGrant, State.grantDefault_arbiter]
  unfold State.HolderAt HolderOk
  rw [State.grantDefault_requests, hg]
  exact ⟨hn, rfl⟩

/-- The holder rule after a grant to the best entry, or to none. -/
theorem State.grantBest_holder (s : State) (o : OutId) : (s.grantBest o).HolderAt o := by
  unfold State.grantBest
  split
  · rename_i r e hb
    exact State.grantTo_best_holder (b := (r, e)) hb
  · rename_i hb
    exact State.grantDefault_holder hb

/-- Forming the candidate afresh completes the holder rule. -/
theorem State.formCandidate_holder {s : State} {o : OutId} (h : s.TopAt o) : (s.formCandidate o).HolderAt o := by
  have hr : (s.formCandidate o).requests o = s.requests o := rfl
  have hg : (s.formCandidate o).outGrant o =
      { s.outGrant o with candidate := (s.requests o).candidateFor (s.outGrant o) } := by
    simp [State.formCandidate, State.setOutGrant, State.outGrant]
  unfold State.HolderAt HolderOk
  rw [hr, hg]
  unfold State.TopAt at h
  cases hh : (s.outGrant o).holder with
  | none =>
    simp only [hh] at h ⊢
    refine ⟨h, ?_⟩
    simp [Requests.candidateFor, hh]
  | some r =>
    simp only [hh] at h ⊢
    obtain ⟨e, h1, h2⟩ := h
    refine ⟨e, h1, h2, fun q hq => ?_⟩
    obtain ⟨hd, he', e', a1, a2, a3, a4, a5⟩ := Requests.candidateFor_spec hq
    rw [hh] at a1
    cases a1
    rw [h1] at a2
    cases a2
    exact ⟨e', a3, a4, a5⟩

/-! ### Each operation keeps the holder rule -/

theorem State.holderPriority_eq {s : State} {o : OutId} {h : Requester} {e : Entry}
    (hh : (s.outGrant o).holder = some h) (he : (s.requests o).get h = some e) : s.holderPriority o = e.priority := by
  simp [State.holderPriority, State.holderEntry?, hh, he]

/-- Arbitration after a receipt (R159–R161, R163): `s` is the state before the entry `e` of `r` was placed. -/
theorem State.afterReceipt_holder {s : State} {o : OutId} {r : Requester} {e : Entry} (h : s.TopAt o) :
    ((s.setEntry o r (some e)).afterReceipt o r e).HolderAt o := by
  have hreq : ∀ q, ((s.setEntry o r (some e)).requests o).get q = if q = r then some e else (s.requests o).get q := by
    intro q; simp [State.setEntry, State.setRequests, State.requests]
  have hgr : (s.setEntry o r (some e)).outGrant o = s.outGrant o := rfl
  unfold State.TopAt at h
  unfold State.afterReceipt
  dsimp only
  split
  · rename_i hh
    rw [hgr] at hh
    simp only [hh] at h
    refine State.grantTo_holder (e := e) (by simp [hreq]) (fun q e' hq => ?_)
    rw [hreq] at hq
    split at hq
    · cases hq; exact le_refl _
    · rw [h q] at hq; cases hq
  · rename_i hd hh
    rw [hgr] at hh
    simp only [hh] at h
    obtain ⟨he, h1, h2⟩ := h
    split
    · split
      · rename_i hle
        refine State.grantTo_holder (e := e) (by simp [hreq]) (fun q e' hq => ?_)
        by_cases hqr : q = r
        · subst hqr; rw [hreq, if_pos rfl] at hq; cases hq; exact le_refl _
        · exact le_trans (Requests.othersPriority_le hq hqr) hle
      · exact State.grantBest_holder _ _
    · rename_i hne
      have hp : (s.setEntry o r (some e)).holderPriority o = he.priority :=
        State.holderPriority_eq (by rw [hgr]; exact hh) (by rw [hreq, if_neg hne]; exact h1)
      rw [hp]
      split
      · exact State.grantBest_holder _ _
      · rename_i hle
        split
        · rename_i heq
          refine State.grantTo_holder (e := e) (by simp [hreq]) (fun q e' hq => ?_)
          rw [hreq] at hq
          split at hq
          · cases hq; exact le_refl _
          · have := h2 q e' hq; omega
        · refine State.formCandidate_holder ?_
          unfold State.TopAt
          rw [hgr, hh]
          refine ⟨he, by rw [hreq, if_neg hne]; exact h1, fun q e' hq => ?_⟩
          rw [hreq] at hq
          split at hq
          · cases hq; omega
          · exact h2 q e' hq

theorem State.afterReceipt_elsewhere (s : State) (o : OutId) (r : Requester) (e : Entry) :
    SameElsewhere o s (s.afterReceipt o r e) := by
  unfold State.afterReceipt
  dsimp only
  split
  · exact s.grantTo_elsewhere o _
  · split
    · split
      · exact s.grantTo_elsewhere o _
      · exact s.grantBest_elsewhere o
    · split
      · exact s.grantBest_elsewhere o
      · split
        · exact s.grantTo_elsewhere o _
        · exact s.formCandidate_elsewhere o

/-- A change of the arbiter's bookkeeping alone keeps the holder rule. -/
theorem State.HoldersOk.setArbiter {s : State} (h : s.HoldersOk) {a : Arbiter} (ht : a.table = s.arbiter.table)
    (ho : a.outs = s.arbiter.outs) : (s.setArbiter a).HoldersOk := by
  intro o
  have := h o
  simp only [State.requests, State.outGrant, State.setArbiter_arbiter, ht, ho] at this ⊢
  exact this

/-- Operations at one output combine. -/
theorem State.HoldersOk.at {s t : State} {o : OutId} (h : s.HoldersOk) (ho : t.HolderAt o)
    (he : SameElsewhere o s t) : t.HoldersOk := by
  intro q
  by_cases hq : q = o
  · subst hq; exact ho
  · obtain ⟨h1, h2⟩ := he q hq
    rw [h1, h2]; exact h q

theorem State.HoldersOk.receive {s : State} (h : s.HoldersOk) (o : OutId) (r : Requester) (v : View) (p hold : Nat) :
    (s.receive o r v p hold).HoldersOk := by
  unfold State.receive
  dsimp only
  have h1 : (s.setArbiter { s.arbiter with receipts := s.arbiter.receipts + 1 }).HoldersOk :=
    h.setArbiter rfl rfl
  exact h1.at (State.afterReceipt_holder (State.HolderAt.top (h1 o)))
    ((State.setEntry_elsewhere _ _ _ _).trans (State.afterReceipt_elsewhere _ _ _ _))

theorem State.afterRemoval_elsewhere (s : State) (o : OutId) (r : Requester) :
    SameElsewhere o s (s.afterRemoval o r) := by
  unfold State.afterRemoval
  split
  · exact s.grantBest_elsewhere o
  · exact s.formCandidate_elsewhere o

/-- The candidate formed afresh after the entry of `r`, not the holder, left the table: `s` is a state whose holder rule held
but for that entry. -/
theorem State.formCandidate_after_removal {s t : State} {o : OutId} {r : Requester} (h : s.TopAt o)
    (hr : ∀ q, (t.requests o).get q = if q = r then none else (s.requests o).get q)
    (hg : t.outGrant o = s.outGrant o) (hsome : ∃ e, (s.requests o).get r = some e)
    (hne : (t.outGrant o).holder ≠ some r) : (t.formCandidate o).HolderAt o := by
  refine State.formCandidate_holder ?_
  unfold State.TopAt at h ⊢
  rw [hg] at hne ⊢
  cases hh : (s.outGrant o).holder with
  | none =>
    simp only [hh] at h ⊢
    obtain ⟨e, he⟩ := hsome
    rw [h r] at he; cases he
  | some hd =>
    simp only [hh] at h ⊢
    obtain ⟨e, h1, h2⟩ := h
    have hd' : hd ≠ r := fun hc => hne (by rw [hh, hc])
    refine ⟨e, by rw [hr, if_neg hd']; exact h1, fun q e' hq => ?_⟩
    rw [hr] at hq
    split at hq
    · cases hq
    · exact h2 q e' hq

/-- Arbitration after a removal (R164): `s` is a state whose holder rule held but for the entry of `r`. -/
theorem State.afterRemoval_holder {s t : State} {o : OutId} {r : Requester} (h : s.TopAt o)
    (hr : ∀ q, (t.requests o).get q = if q = r then none else (s.requests o).get q)
    (hg : t.outGrant o = s.outGrant o) (hsome : ∃ e, (s.requests o).get r = some e) :
    (t.afterRemoval o r).HolderAt o := by
  unfold State.afterRemoval
  split
  · exact State.grantBest_holder _ _
  · rename_i hne
    exact State.formCandidate_after_removal h hr hg hsome hne

/-- Arbitration after a keep-alive expiry takes entries away from its output alone. -/
theorem State.afterExpiry_elsewhere (s : State) (o : OutId) (r : Requester) :
    SameElsewhere o s (s.afterExpiry o r) := by
  unfold State.afterExpiry
  split
  · split
    · exact (s.grantDefault_elsewhere o).trans (State.grantTo_elsewhere _ o _)
    · exact s.grantDefault_elsewhere o
  · exact s.formCandidate_elsewhere o

/-- Arbitration after a keep-alive expiry (R164, R165). -/
theorem State.afterExpiry_holder {s t : State} {o : OutId} {r : Requester} (h : s.TopAt o)
    (hr : ∀ q, (t.requests o).get q = if q = r then none else (s.requests o).get q)
    (hg : t.outGrant o = s.outGrant o) (hsome : ∃ e, (s.requests o).get r = some e) :
    (t.afterExpiry o r).HolderAt o := by
  unfold State.afterExpiry
  split
  · split
    · rename_i b e hb
      refine State.grantTo_best_holder (b := (b, e)) ?_
      rw [State.grantDefault_requests]
      exact hb
    · rename_i hb
      exact State.grantDefault_holder hb
  · rename_i hne
    exact State.formCandidate_after_removal h hr hg hsome hne

theorem State.setEntry_none_get (s : State) (o : OutId) (r q : Requester) :
    ((s.setEntry o r none).requests o).get q = if q = r then none else (s.requests o).get q := by
  simp [State.setEntry, State.setRequests, State.requests]

theorem State.HoldersOk.remove {s : State} (h : s.HoldersOk) (o : OutId) (r : Requester) : (s.remove o r).HoldersOk := by
  unfold State.remove
  split
  · exact h
  · rename_i e he
    exact h.at (State.afterRemoval_holder (State.HolderAt.top (h o)) (s.setEntry_none_get o r) rfl ⟨e, he⟩)
      ((s.setEntry_elsewhere _ _ _).trans (State.afterRemoval_elsewhere _ _ _))

theorem State.HoldersOk.dwellElapsed {s : State} (h : s.HoldersOk) (o : OutId) : (s.dwellElapsed o).HoldersOk := by
  unfold State.dwellElapsed
  split
  · rename_i r hc
    refine h.at ?_ (s.grantTo_elsewhere o r)
    have ho := h o
    unfold HolderOk at ho
    split at ho
    · rw [ho.2] at hc; cases hc
    · obtain ⟨e, -, h2, h3⟩ := ho
      obtain ⟨e', g1, g2, -⟩ := h3 r hc
      exact State.grantTo_holder g1 (fun q e'' hq => by have := h2 q e'' hq; omega)
  · rename_i hc
    refine h.at ?_ (s.setOutGrant_elsewhere o _)
    have ho := h o
    unfold State.HolderAt
    have hg : (s.setOutGrant o { s.outGrant o with dwellRunning := false }).outGrant o =
      { s.outGrant o with dwellRunning := false } := by simp [State.setOutGrant, State.outGrant]
    rw [hg]
    exact ho

theorem State.HoldersOk.dwellWritten {s : State} (h : s.HoldersOk) (o : OutId) : (s.dwellWritten o).HoldersOk := by
  unfold State.dwellWritten
  split
  · exact h.dwellElapsed o
  · split
    · refine h.at ?_ (s.setOutGrant_elsewhere o _)
      unfold State.HolderAt
      have hg : (s.setOutGrant o { s.outGrant o with dwellRunning := true }).outGrant o =
        { s.outGrant o with dwellRunning := true } := by simp [State.setOutGrant, State.outGrant]
      rw [hg]
      exact h o
    · exact h

theorem State.dropPersistent_get (s : State) (k : ReqSlot) (o q : OutId) (r : Requester) :
    ((s.dropPersistent k o).requests q).get r =
      if q = o ∧ r = .master k ∧ s.hasPersistent k o = true then none else (s.requests q).get r := by
  unfold State.dropPersistent
  by_cases hp : s.hasPersistent k o = true
  · rw [if_pos hp]
    by_cases hq : q = o
    · subst hq
      rw [State.setEntry_none_get]
      simp [hp]
    · rw [(s.setEntry_elsewhere o _ _ q hq).1]
      simp [hq]
  · rw [if_neg hp]
    simp [hp]

theorem State.dropPersistent_outGrant (s : State) (k : ReqSlot) (o q : OutId) :
    (s.dropPersistent k o).outGrant q = s.outGrant q := by
  unfold State.dropPersistent
  split <;> rfl

theorem State.hasPersistent_entry {s : State} {k : ReqSlot} {o : OutId} (h : s.hasPersistent k o = true) :
    ∃ e, (s.requests o).get (.master k) = some e := by
  unfold State.hasPersistent persistent State.entry? at h
  split at h
  · cases h
  · rename_i e he; exact ⟨e, he⟩

theorem State.HoldersOk.expire {s : State} (h : s.HoldersOk) (k : ReqSlot) : (s.expire k).HoldersOk := by
  -- the state with the persistent entries out, the count raised and the notice asked
  obtain ⟨u, hu, hreq, hout⟩ : ∃ u : State,
      s.expire k = (let w := if s.hasPersistent k .a then u.afterExpiry .a (.master k) else u
        if s.hasPersistent k .b then w.afterExpiry .b (.master k) else w) ∧
      (∀ q r, (u.requests q).get r =
        if r = .master k ∧ s.hasPersistent k q = true then none else (s.requests q).get r) ∧
      (∀ q, u.outGrant q = s.outGrant q) := by
    refine ⟨_, rfl, fun q r => ?_, fun q => ?_⟩
    · have hb : (s.dropPersistent k .a).hasPersistent k .b = s.hasPersistent k .b := by
        unfold State.hasPersistent State.entry?
        rw [State.dropPersistent_get]; simp
      show ((((s.dropPersistent k .a).dropPersistent k .b)).requests q).get r = _
      rw [State.dropPersistent_get, State.dropPersistent_get, hb]
      cases q <;> simp
    · show (((s.dropPersistent k .a).dropPersistent k .b)).outGrant q = _
      rw [State.dropPersistent_outGrant, State.dropPersistent_outGrant]
  rw [hu]
  dsimp only
  have hA : s.hasPersistent k .a = true → ∀ w : State, w.requests .a = u.requests .a → w.outGrant .a = u.outGrant .a →
      (w.afterExpiry .a (.master k)).HolderAt .a := by
    intro hp w h1 h2
    refine State.afterExpiry_holder (State.HolderAt.top (h .a)) (fun q => ?_) (h2.trans (hout .a))
      (State.hasPersistent_entry hp)
    rw [h1, hreq]; simp [hp]
  have hB : s.hasPersistent k .b = true → ∀ w : State, w.requests .b = u.requests .b → w.outGrant .b = u.outGrant .b →
      (w.afterExpiry .b (.master k)).HolderAt .b := by
    intro hp w h1 h2
    refine State.afterExpiry_holder (State.HolderAt.top (h .b)) (fun q => ?_) (h2.trans (hout .b))
      (State.hasPersistent_entry hp)
    rw [h1, hreq]; simp [hp]
  have same : ∀ o, s.hasPersistent k o = false → u.HolderAt o := by
    intro o hp
    have hr : u.requests o = s.requests o := by
      have : ∀ r, (u.requests o).get r = (s.requests o).get r := by intro r; rw [hreq]; simp [hp]
      have ha := this .auger
      have hm : ∀ j, (u.requests o).masters.get j = (s.requests o).masters.get j := fun j => this (.master j)
      have hm' : (u.requests o).masters = (s.requests o).masters := by
        cases h1 : (u.requests o).masters; cases h2 : (s.requests o).masters
        rw [h1, h2] at hm
        have := hm .k1; have := hm .k2; have := hm .k3; have := hm .k4; have := hm .k5; have := hm .k6
        simp_all [PerReq.get]
      cases h1 : u.requests o; cases h2 : s.requests o
      simp_all [Requests.get]
    exact State.HolderAt.of_same (h o) hr (hout o)
  intro o
  cases hpa : s.hasPersistent k .a <;> cases hpb : s.hasPersistent k .b <;>
    simp only [Bool.false_eq_true, if_false, if_true]
  · exact same o (by cases o <;> assumption)
  · cases o
    · have := State.afterExpiry_elsewhere u .b (.master k) .a (by decide)
      rw [this.1, this.2]; exact same .a hpa
    · exact hB hpb u rfl rfl
  · cases o
    · exact hA hpa u rfl rfl
    · have := State.afterExpiry_elsewhere u .a (.master k) .b (by decide)
      rw [this.1, this.2]; exact same .b hpb
  · have e1 := State.afterExpiry_elsewhere u .a (.master k) .b (by decide)
    cases o
    · have := State.afterExpiry_elsewhere (u.afterExpiry .a (.master k)) .b (.master k) .a (by decide)
      rw [this.1, this.2]; exact hA hpa u rfl rfl
    · exact hB hpb _ e1.1 e1.2

theorem State.HoldersOk.keepaliveWritten {s : State} (h : s.HoldersOk) (k : ReqSlot) :
    (s.keepaliveWritten k).HoldersOk := by
  unfold State.keepaliveWritten
  split
  · exact h
  · split
    · exact h.expire k
    · exact h

theorem State.HoldersOk.nodeCodeChanged {s : State} (h : s.HoldersOk) (k : ReqSlot) : (s.nodeCodeChanged k).HoldersOk :=
  ((h.remove _ _).remove _ _).setArbiter rfl rfl

theorem State.afterLowering_elsewhere (s : State) (o : OutId) (r : Requester) (e : Entry) :
    SameElsewhere o s (s.afterLowering o r e) := by
  unfold State.afterLowering
  split
  · split
    · exact fun q hq => (State.formCandidate_elsewhere (s.ask (.viewStatus o)) o) q hq
    · exact s.grantBest_elsewhere o
  · exact s.formCandidate_elsewhere o

theorem State.HoldersOk.lowerEntry {s : State} (h : s.HoldersOk) (k : ReqSlot) (p : Nat) (o : OutId) :
    (s.lowerEntry k p o).HoldersOk := by
  unfold State.lowerEntry
  split
  · exact h
  · rename_i e he
    dsimp only
    split
    · rename_i hlt
      refine h.at ?_ ((s.setEntry_elsewhere _ _ _).trans (State.afterLowering_elsewhere _ _ _ _))
      have hreq : ∀ q, ((s.setEntry o (.master k) (some { e with priority := p })).requests o).get q =
          if q = .master k then some { e with priority := p } else (s.requests o).get q := by
        intro q; simp [State.setEntry, State.setRequests, State.requests]
      have ht := State.HolderAt.top (h o)
      unfold State.TopAt at ht
      unfold State.afterLowering
      have hgr : (s.setEntry o (.master k) (some { e with priority := p })).outGrant o = s.outGrant o := rfl
      split
      · rename_i hh
        rw [hgr] at hh
        split
        · rename_i hle
          refine State.formCandidate_holder (s := (s.setEntry o (.master k) (some { e with priority := p })).ask _) ?_
          show State.TopAt (s.setEntry o (.master k) (some { e with priority := p })) o
          unfold State.TopAt
          rw [hgr, hh]
          refine ⟨{ e with priority := p }, by rw [hreq, if_pos rfl], fun q e' hq => ?_⟩
          by_cases hqr : q = .master k
          · rw [hreq, if_pos hqr] at hq; cases hq; exact le_refl _
          · exact le_trans (Requests.othersPriority_le hq hqr) hle
        · exact State.grantBest_holder _ _
      · rename_i hh
        rw [hgr] at hh
        refine State.formCandidate_holder ?_
        unfold State.TopAt
        rw [hgr]
        cases hd : (s.outGrant o).holder with
        | none =>
          simp only [hd] at ht
          have := ht (.master k)
          rw [State.entry?] at he
          rw [this] at he
          cases he
        | some x =>
          simp only [hd] at ht ⊢
          obtain ⟨ex, h1, h2⟩ := ht
          have hx : x ≠ .master k := fun hc => hh (by rw [hd, hc])
          refine ⟨ex, by rw [hreq, if_neg hx]; exact h1, fun q e' hq => ?_⟩
          rw [hreq] at hq
          split at hq
          · cases hq
            have := h2 (.master k) e he
            show p ≤ ex.priority
            omega
          · exact h2 q e' hq
    · exact h

theorem State.HoldersOk.maxPriorityLowered {s : State} (h : s.HoldersOk) (k : ReqSlot) (p : Nat) :
    (s.maxPriorityLowered k p).HoldersOk := (h.lowerEntry _ _ _).lowerEntry _ _ _

theorem State.HoldersOk.augerCreate {s : State} (h : s.HoldersOk) : s.augerCreate.HoldersOk := h.receive _ _ _ _ _
theorem State.HoldersOk.augerRemove {s : State} (h : s.HoldersOk) : s.augerRemove.HoldersOk :=
  (h.remove _ _).remove _ _
theorem State.HoldersOk.augerChanged {s : State} (h : s.HoldersOk) (a b : AugerState) :
    (s.augerChanged a b).HoldersOk := by
  unfold State.augerChanged
  split
  · split
    · exact h.augerCreate
    · exact h
  · split
    · exact h.augerRemove
    · exact h
theorem State.HoldersOk.augerPriorityChanged {s : State} (h : s.HoldersOk) : s.augerPriorityChanged.HoldersOk := by
  unfold State.augerPriorityChanged
  split
  · exact h.augerRemove
  · split
    · exact h.augerCreate
    · exact h
theorem State.HoldersOk.augerCameraChanged {s : State} (h : s.HoldersOk) : s.augerCameraChanged.HoldersOk := by
  unfold State.augerCameraChanged
  split
  · exact h.augerCreate
  · exact h
theorem State.HoldersOk.augerOutputChanged {s : State} (h : s.HoldersOk) : s.augerOutputChanged.HoldersOk := by
  unfold State.augerOutputChanged
  split
  · exact h.augerRemove.augerCreate
  · exact h

/-- States with the same arbiter keep the holder rule together. -/
theorem State.HoldersOk.of_arbiter {s t : State} (h : s.HoldersOk) (e : t.arbiter = s.arbiter) : t.HoldersOk := by
  intro o
  have := h o
  simp only [State.requests, State.outGrant, e] at this ⊢
  exact this

theorem State.HoldersOk.changeChannel {s : State} (h : s.HoldersOk) (e : ChanId) (ch : Channel) :
    (s.changeChannel e ch).HoldersOk := by
  unfold State.changeChannel
  dsimp only
  have h1 : (if (s.channel e).state ≠ ch.state ∨ (s.channel e).auger ≠ ch.auger then
      (s.setChannel e ch).ask (.encoderReport e) else s.setChannel e ch).HoldersOk := by
    split <;> exact h.of_arbiter rfl
  split
  · exact h1.augerChanged _ _
  · exact h1

end Sys2Proof.Machine
end

