-- ==== Sys2Proof/Laws/Messages.lean ====
section
/-! SUPPORT. Commands as they arrive: what an event does on a running part, what a message of a known or unknown node comes
to, and the rows that are COMMAND or PARAM WRITE messages reduced to the work of their bit or their parameter. -/

namespace Sys2Proof.Machine

/-- A command of a running part does its work, and then the head of the queue is taken. -/
theorem event_running {s : State} (h : s.held = false) (f : State → State) : event f s = .next (takeHead (f s)) := by
  simp [event, h]

theorem event_held {s : State} (h : s.held = true) (f : State → State) : event f s = .next s := by
  simp [event, h]

theorem State.Hears.held {s : State} {node : Byte} {k : ReqSlot} (h : s.Hears node k) : s.held = false := h.1
theorem State.Hears.onBus {s : State} {node : Byte} {k : ReqSlot} (h : s.Hears node k) : s.mi.onBus = true := h.2.1
theorem State.Hears.matched {s : State} {node : Byte} {k : ReqSlot} (h : s.Hears node k) :
    s.matchNode node = some k := h.2.2

/-- The work of a frame received on the bus. -/
theorem onReceipt_onBus {s : State} (h : s.mi.onBus = true) (f : State → State) :
    onReceipt f s = f (s.setMi s.mi.frameReceived) := by simp [onReceipt, h]

/-- A message of a known node acts on the state in which that node has been heard. -/
theorem message_known {s : State} {node : Byte} {k : ReqSlot} (h : s.Hears node k) (unknown : State → State)
    (known : ReqSlot → State → State) :
    event (onReceipt (fromNode node unknown known)) s = .next (takeHead (known k (s.heard k))) := by
  have hm : (s.setMi s.mi.frameReceived).matchNode node = some k := h.matched
  rw [event_running h.held, onReceipt_onBus h.onBus]
  simp only [fromNode, hm]
  rfl

/-- The same for a message whose arrival first notes something of the state that the sender's match does not read. -/
theorem message_known_noting {s : State} {node : Byte} {k : ReqSlot} (h : s.Hears node k) (note : State → State)
    (hp : ∀ u, (note u).params = u.params) (unknown : State → State) (known : ReqSlot → State → State) :
    event (onReceipt (fun u => fromNode node unknown known (note u))) s =
      .next (takeHead (known k ((note (s.setMi s.mi.frameReceived)).refresh k))) := by
  have hm : (note (s.setMi s.mi.frameReceived)).matchNode node = some k := by
    have := h.matched
    unfold State.matchNode at this ⊢
    rw [hp]; exact this
  rw [event_running h.held, onReceipt_onBus h.onBus]
  simp only [fromNode, hm]

/-- A message of an unknown node. -/
theorem message_unknown {s : State} {node : Byte} (hh : s.held = false) (hb : s.mi.onBus = true)
    (hm : s.matchNode node = none) (unknown : State → State) (known : ReqSlot → State → State) :
    event (onReceipt (fromNode node unknown known)) s = .next (takeHead (unknown (s.setMi s.mi.frameReceived))) := by
  have hm' : (s.setMi s.mi.frameReceived).matchNode node = none := hm
  rw [event_running hh, onReceipt_onBus hb]
  simp only [fromNode, hm']

/-! ### What a heard state keeps -/

section
variable (s : State) (k : ReqSlot)
@[simp] theorem State.heard_pending : (s.heard k).pending = s.pending := rfl
@[simp] theorem State.heard_held : (s.heard k).held = s.held := rfl
@[simp] theorem State.heard_timebase : (s.heard k).timebase = s.timebase := rfl
@[simp] theorem State.heard_setup : (s.heard k).setup = s.setup := rfl
@[simp] theorem State.heard_params : (s.heard k).params = s.params := rfl
@[simp] theorem State.heard_links : (s.heard k).links = s.links := rfl
@[simp] theorem State.heard_rings : (s.heard k).rings = s.rings := rfl
@[simp] theorem State.heard_screens : (s.heard k).screens = s.screens := rfl
@[simp] theorem State.heard_contexts : (s.heard k).contexts = s.contexts := rfl
@[simp] theorem State.heard_engine : (s.heard k).engine = s.engine := rfl
@[simp] theorem State.heard_tables : (s.heard k).tables = s.tables := rfl
@[simp] theorem State.heard_channels : (s.heard k).channels = s.channels := rfl
@[simp] theorem State.heard_outputs : (s.heard k).outputs = s.outputs := rfl
@[simp] theorem State.heard_stillUnit : (s.heard k).stillUnit = s.stillUnit := rfl
@[simp] theorem State.heard_table : (s.heard k).arbiter.table = s.arbiter.table := rfl
@[simp] theorem State.heard_outs : (s.heard k).arbiter.outs = s.arbiter.outs := rfl
@[simp] theorem State.heard_receipts : (s.heard k).arbiter.receipts = s.arbiter.receipts := rfl
end

/-! ### COMMAND rows -/

@[simp] theorem targetOf_byte (t : Target) : targetOf t.byte = some t := by
  cases t with
  | camera c => cases c <;> decide
  | encoder e => cases e <;> decide
  | device => decide

/-- A COMMAND message of a known node to a target. -/
theorem command_known {s : State} {node : Byte} {k : ReqSlot} (h : s.Hears node k) (t : Target) (bits : Word)
    (underWay : Bool) :
    event (onReceipt (commandMessage node t.byte bits underWay)) s =
      .next (takeHead (obey node t bits underWay (s.heard k))) := by
  unfold commandMessage
  rw [message_known h]
  simp

theorem bitCommand_known {s : State} {node : Byte} {k : ReqSlot} (h : s.Hears node k) (t : Target) (bits : Word) (i : Nat)
    (underWay : Bool) :
    event (onReceipt (bitCommand node t bits i underWay)) s =
      .next (takeHead (obey node t (bits ||| BitVec.twoPow 16 i) underWay (s.heard k))) :=
  command_known h t _ underWay

/-! ### PARAM WRITE rows -/

/-- A stored write: its value, what it sets off, and the reply. -/
theorem State.writeParam_taken {s : State} {id : ParamId} (h : s.Takes id) (node : Byte) (v : Int) :
    s.writeParam node id.word id v = (s.storeParam id v).replied s node id v := by
  have h1 : (id.guarded && !s.setup) = false := by
    cases hg : id.guarded
    · rfl
    · simp [h.1 hg]
  unfold State.writeParam State.writeResult State.replied
  rw [h1, h.2]
  cases hc : s.params.clampsWrite id v <;> simp [State.reply]

/-- A PARAM WRITE row of a known node whose write is taken. -/
theorem param_known {s : State} {node : Byte} {k : ReqSlot} (h : s.Hears node k) {id : ParamId} (ht : s.Takes id)
    (value : BitVec 32) :
    event (onReceipt (paramMessage node id value)) s =
      .next (takeHead (((s.heard k).storeParam id value.toInt).replied (s.heard k) node id value.toInt)) := by
  unfold paramMessage
  rw [message_known h]
  have ht' : (s.heard k).Takes id := ht
  rw [State.writeParam_taken ht']

/-- The state a stored write hands to the owning block. -/
theorem State.storeParam_eq (s : State) (id : ParamId) (v : Int) :
    s.storeParam id v = (s.stored id v).written id (s.params.read id) (s.params.fit id v) := rfl

end Sys2Proof.Machine
end

