-- ==== Sys2Proof/Laws/PictureFrames.lean ====
section
/-! SUPPORT. Link, frame store, screen, engine and table operations stay within the picture frame: from a state within
the frame of `s`, each leads to a state within the frame of `s`. -/

namespace Sys2Proof.Machine
namespace State.PictureFrame

variable {s t : State}

theorem refl (s : State) : s.PictureFrame s := ⟨rfl, rfl, rfl, rfl, rfl, rfl, rfl, rfl, rfl, .refl _⟩

theorem trans {u : State} (h : s.PictureFrame t) (g : t.PictureFrame u) : s.PictureFrame u :=
  ⟨g.pending.trans h.pending, g.held.trans h.held, g.timebase.trans h.timebase, g.setup.trans h.setup,
    g.params.trans h.params, g.channels.trans h.channels, g.outputs.trans h.outputs, g.arbiter.trans h.arbiter,
    g.stillUnit.trans h.stillUnit, h.mi.trans g.mi⟩

/-! ### Updates and messages -/

theorem setLink (h : s.PictureFrame t) (c : CamId) (v : Link) : s.PictureFrame (t.setLink c v) :=
  h.trans ⟨rfl, rfl, rfl, rfl, rfl, rfl, rfl, rfl, rfl, .refl _⟩
theorem setRing (h : s.PictureFrame t) (c : CamId) (v : Ring) : s.PictureFrame (t.setRing c v) :=
  h.trans ⟨rfl, rfl, rfl, rfl, rfl, rfl, rfl, rfl, rfl, .refl _⟩
theorem setSlot (h : s.PictureFrame t) (c : CamId) (k : SlotId) (v : Slot) : s.PictureFrame (t.setSlot c k v) :=
  h.setRing _ _
theorem setScreen (h : s.PictureFrame t) (c : CamId) (v : Screen) : s.PictureFrame (t.setScreen c v) :=
  h.trans ⟨rfl, rfl, rfl, rfl, rfl, rfl, rfl, rfl, rfl, .refl _⟩
theorem setContext (h : s.PictureFrame t) (c : CamId) (v : Context) : s.PictureFrame (t.setContext c v) :=
  h.trans ⟨rfl, rfl, rfl, rfl, rfl, rfl, rfl, rfl, rfl, .refl _⟩
theorem setEngine (h : s.PictureFrame t) (v : Engine) : s.PictureFrame (t.setEngine v) :=
  h.trans ⟨rfl, rfl, rfl, rfl, rfl, rfl, rfl, rfl, rfl, .refl _⟩
theorem setTable (h : s.PictureFrame t) (c : CamId) (v : PhaseTable) : s.PictureFrame (t.setTable c v) :=
  h.trans ⟨rfl, rfl, rfl, rfl, rfl, rfl, rfl, rfl, rfl, .refl _⟩
theorem ask (h : s.PictureFrame t) {m : Message} (hm : m.key ≠ (dropNotice 0).key) : s.PictureFrame (t.ask m) :=
  h.trans ⟨rfl, rfl, rfl, rfl, rfl, rfl, rfl, rfl, rfl, .one _ hm⟩
theorem notice (h : s.PictureFrame t) {code : FaultCode} (hc : code ≠ .outboundDrop) (subject count : Nat) :
    s.PictureFrame (t.notice code subject count) :=
  h.ask (by simp [Message.key, dropNotice, hc])

/-! ### Tables and engine -/

theorem setLastPhase (h : s.PictureFrame t) (c : CamId) (i : Option PhaseInfo) : s.PictureFrame (t.setLastPhase c i) :=
  h.setTable _ _
theorem clearTable (h : s.PictureFrame t) (c : CamId) : s.PictureFrame (t.clearTable c) := h.setTable _ _
theorem clearIfBound (h : s.PictureFrame t) (e : ChanId) (c : CamId) : s.PictureFrame (t.clearIfBound e c) := by
  unfold State.clearIfBound
  split
  · exact h.clearTable _
  · exact h
theorem clearBound (h : s.PictureFrame t) (e : ChanId) : s.PictureFrame (t.clearBound e) :=
  (((h.clearIfBound e .cam0).clearIfBound e .cam1).clearIfBound e .cam2).clearIfBound e .cam3
theorem phaseWrites (h : s.PictureFrame t) (j : Job) (i : Option PhaseInfo) (p : XY (Option Int)) :
    s.PictureFrame (t.phaseWrites j i p) := (h.setSlot _ _ _).setLastPhase _ _
theorem startJob (h : s.PictureFrame t) (j : Job) : s.PictureFrame (t.startJob j) :=
  ((h.phaseWrites _ _ _).setContext _ _).setEngine _
theorem startNext (h : s.PictureFrame t) : s.PictureFrame t.startNext := by
  unfold State.startNext
  split
  · exact (h.setEngine _).startJob _
  · exact h
theorem supersede (h : s.PictureFrame t) (j : Job) : s.PictureFrame (t.supersede j) :=
  ((h.phaseWrites _ _ _).setSlot _ _ _).setRing _ _
theorem withdraw (h : s.PictureFrame t) (c : CamId) : s.PictureFrame (t.withdraw c) := by
  unfold State.withdraw
  split
  · exact h
  · exact (h.setEngine _).supersede _
theorem handOff (h : s.PictureFrame t) (j : Job) : s.PictureFrame (t.handOff j) :=
  ((h.withdraw _).setEngine _).startNext
theorem completeWith (h : s.PictureFrame t) (j : RunningJob) (k : Slot) (r : Record) :
    s.PictureFrame (t.completeWith j k r) :=
  ((((h.setContext _ _).setTable _ _).setSlot _ _ _).setEngine _).startNext
theorem completeJob (h : s.PictureFrame t) : s.PictureFrame t.completeJob := by
  unfold State.completeJob
  split
  · exact h
  · split
    · exact (h.setEngine _).startNext
    · exact h.completeWith _ _ _
theorem engineLinkDown (h : s.PictureFrame t) (c : CamId) : s.PictureFrame (t.engineLinkDown c) := h.setContext _ _
theorem refRefresh (h : s.PictureFrame t) (c : CamId) : s.PictureFrame (t.refRefresh c) := h.setContext _ _

/-! ### Frame store and screen -/

theorem fillSlot (h : s.PictureFrame t) (c : CamId) (k : SlotId) : s.PictureFrame (t.fillSlot c k) := h.setRing _ _
theorem overrun (h : s.PictureFrame t) (c : CamId) : s.PictureFrame (t.overrun c) :=
  (h.setRing _ _).notice (by decide) _ _
theorem scoredEnd (h : s.PictureFrame t) (c : CamId) (k : SlotId) (n : Nat) (v : Verdict) :
    s.PictureFrame (t.scoredEnd c k n v) := ((h.setSlot _ _ _).setRing _ _).handOff _
theorem wellFormedEnd (h : s.PictureFrame t) (c : CamId) (k : SlotId) (n : Nat) :
    s.PictureFrame (t.wellFormedEnd c k n) := by
  unfold State.wellFormedEnd
  dsimp only
  split
  · exact (h.setScreen _ _).setRing _ _
  · exact (h.setScreen _ _).scoredEnd _ _ _ _
theorem storeFrameEnd (h : s.PictureFrame t) (c : CamId) (w : Bool) (n : Nat) :
    s.PictureFrame (t.storeFrameEnd c w n) := by
  unfold State.storeFrameEnd
  split
  · exact h
  · split
    · exact h.wellFormedEnd _ _ _
    · exact h.setRing _ _
theorem storeLinkDown (h : s.PictureFrame t) (c : CamId) : s.PictureFrame (t.storeLinkDown c) := by
  unfold State.storeLinkDown
  split
  · exact h
  · exact h.setRing _ _
theorem screenLinkDown (h : s.PictureFrame t) (c : CamId) : s.PictureFrame (t.screenLinkDown c) := h.setScreen _ _

/-! ### Links -/

theorem failAttempt (h : s.PictureFrame t) (c : CamId) : s.PictureFrame (t.failAttempt c) := by
  unfold State.failAttempt
  dsimp only
  split
  · exact h.setLink _ _
  · exact (h.setLink _ _).notice (by decide) _ _
theorem linkDown (h : s.PictureFrame t) (c : CamId) : s.PictureFrame (t.linkDown c) :=
  ((h.storeLinkDown c).engineLinkDown c).screenLinkDown c
theorem leaveLocked (h : s.PictureFrame t) (c : CamId) : s.PictureFrame (t.leaveLocked c) :=
  (((h.setLink _ _).notice (by decide) _ _).linkDown c).setLink _ _
theorem forceTapUpdate (h : s.PictureFrame t) (c : CamId) : s.PictureFrame (t.forceTapUpdate c) := by
  unfold State.forceTapUpdate
  split
  · exact h.setLink _ _
  · exact h
theorem setOffered (h : s.PictureFrame t) (c : CamId) (o : Tap) : s.PictureFrame (t.setOffered c o) := h.setLink _ _
theorem linkReset (h : s.PictureFrame t) (c : CamId) : s.PictureFrame (t.linkReset c) := by
  unfold State.linkReset
  split
  · exact h.leaveLocked c
  · exact h.setLink _ _
  · exact h.setLink _ _
  · exact h.setLink _ _
  · exact h
theorem countWords (h : s.PictureFrame t) (c : CamId) (n : Nat) : s.PictureFrame (t.countWords c n) := h.setLink _ _
theorem marker (h : s.PictureFrame t) (c : CamId) (n : Nat) {f : State → State}
    (hf : ∀ u, s.PictureFrame u → s.PictureFrame (f u)) : s.PictureFrame (t.marker c n f) := by
  unfold State.marker
  split
  · exact hf _ (h.setLink _ _)
  · exact h.countWords _ _
  all_goals exact h
theorem conceal (h : s.PictureFrame t) (c : CamId) (k : SlotId) : s.PictureFrame (t.conceal c k) :=
  (h.setSlot _ _ _).setLink _ _
theorem concealMany (h : s.PictureFrame t) (c : CamId) (k : SlotId) (n : Nat) :
    s.PictureFrame (t.concealMany c k n) := by
  induction n generalizing t with
  | zero => exact h
  | succ n ih => exact ih (h.conceal c k)
theorem settleGood (h : s.PictureFrame t) (c : CamId) (k : SlotId) (row : List Word) :
    s.PictureFrame (t.settleGood c k row) := (h.setSlot _ _ _).setLink _ _
theorem closeLine (h : s.PictureFrame t) (c : CamId) : s.PictureFrame (t.closeLine c) := h.setLink _ _
theorem openAt (h : s.PictureFrame t) (c : CamId) (n : Nat) (b : Bool) : s.PictureFrame (t.openAt c n b) :=
  h.setLink _ _
theorem settleOpenBad (h : s.PictureFrame t) (c : CamId) (k : SlotId) : s.PictureFrame (t.settleOpenBad c k) := by
  unfold State.settleOpenBad
  split
  · exact h
  · exact (h.conceal c k).closeLine c
theorem countMalformed (h : s.PictureFrame t) (c : CamId) (m : Bool) : s.PictureFrame (t.countMalformed c m) := by
  unfold State.countMalformed
  dsimp only
  split
  · split
    · exact h.setLink _ _
    · exact ((h.setLink _ _).notice (by decide) _ _).leaveLocked c
  · exact h.setLink _ _
theorem applyPendingTap (h : s.PictureFrame t) (c : CamId) : s.PictureFrame (t.applyPendingTap c) := h.setLink _ _
theorem endFrame (h : s.PictureFrame t) (c : CamId) (k : SlotId) (b : Bool) : s.PictureFrame (t.endFrame c k b) := by
  have h' (l : Link) := ((h.settleOpenBad c k).setLink c l).storeFrameEnd c
  cases b
  · exact ((h' _ _ _).applyPendingTap c).countMalformed _ _
  · exact (h' _ _ _).countMalformed _ _
theorem beginFrame (h : s.PictureFrame t) (c : CamId) (n : Byte) : s.PictureFrame (t.beginFrame c n) := by
  unfold State.beginFrame
  dsimp only
  split
  · exact ((((h.setLink _ _).setRing _ _).fillSlot _ _).setLink _ _).setLink _ _
  · exact ((((h.setLink _ _).setRing _ _).setLink _ _).overrun _).setLink _ _
theorem takeFrameStart (h : s.PictureFrame t) (c : CamId) (n : Byte) : s.PictureFrame (t.takeFrameStart c n) := by
  unfold State.takeFrameStart
  split
  · exact h.beginFrame _ _
  · exact h.beginFrame _ _
  · dsimp only
    split
    · exact (h.endFrame _ _ _).beginFrame _ _
    · exact h.endFrame _ _ _
theorem takeFrameEnd (h : s.PictureFrame t) (c : CamId) : s.PictureFrame (t.takeFrameEnd c) := by
  unfold State.takeFrameEnd
  split
  · exact h.applyPendingTap _
  · exact (h.setLink _ _).applyPendingTap _
  · exact h.endFrame _ _ _
theorem takeLineStart (h : s.PictureFrame t) (c : CamId) (k : SlotId) (n : Nat) :
    s.PictureFrame (t.takeLineStart c k n) := by
  unfold State.takeLineStart
  dsimp only
  have h' := h.settleOpenBad c k
  split
  · exact h'
  · split
    · exact h'.openAt _ _ _
    · split
      · exact (h'.concealMany _ _ _).openAt _ _ _
      · exact h'.openAt _ _ _
theorem whileReceiving (h : s.PictureFrame t) (c : CamId) {f : SlotId → State → State}
    (hf : ∀ k u, s.PictureFrame u → s.PictureFrame (f k u)) : s.PictureFrame (t.whileReceiving c f) := by
  unfold State.whileReceiving
  split
  · exact hf _ _ h
  all_goals exact h
theorem takeLineEnd (h : s.PictureFrame t) (c : CamId) (k : SlotId) (w : Word) :
    s.PictureFrame (t.takeLineEnd c k w) := by
  unfold State.takeLineEnd
  split
  · exact h
  · split
    · exact (h.settleGood _ _ _).closeLine _
    · exact (h.conceal _ _).closeLine _

/-! ### Camera commands -/

theorem clearCameraCounts (h : s.PictureFrame t) (c : CamId) : s.PictureFrame (t.clearCameraCounts c) :=
  (((h.setLink _ _).setRing _ _).setContext _ _).setTable _ _
theorem whenBit (h : s.PictureFrame t) (bits : Word) (i : Nat) {f : State → State}
    (hf : ∀ u, s.PictureFrame u → s.PictureFrame (f u)) : s.PictureFrame (Machine.whenBit bits i f t) := by
  unfold Machine.whenBit
  split
  · exact hf _ h
  · exact h
theorem cameraCommands (h : s.PictureFrame t) (c : CamId) (bits : Word) :
    s.PictureFrame (Machine.cameraCommands c bits t) :=
  ((((h.whenBit bits 0 (fun _ g => g.linkReset c)).whenBit bits 1 (fun _ g => g.refRefresh c)).whenBit bits 2
    (fun _ g => g.clearTable c)).whenBit bits 3 (fun _ g => g.forceTapUpdate c)).whenBit bits 4
    (fun _ g => g.clearCameraCounts c)

end State.PictureFrame
end Sys2Proof.Machine
end

