-- ==== Sys2Proof/Laws/Rows.lean ====
section
/-! SUPPORT. Frame buffers: reading after writing, and that every write keeps the canonical form. -/

namespace Sys2Proof.Machine

theorem RowStore.wf_iff (width : Nat) (m : RowStore) :
    RowStore.wf width m = true ↔ (m.map (·.1)).Pairwise (· < ·) ∧ ∀ e ∈ m, e.2 ≠ blackRow width := by
  simp [RowStore.wf]

theorem RowStore.wf_nil (width : Nat) : RowStore.wf width [] = true := by simp [RowStore.wf]

/-- Filtering keeps the canonical form. -/
theorem RowStore.wf_filter {width : Nat} {m : RowStore} (p : Nat × List Word → Bool) (h : RowStore.wf width m = true) :
    RowStore.wf width (m.filter p) = true := by
  rw [wf_iff] at h ⊢
  refine ⟨h.1.sublist (List.filter_sublist.map _), fun e he => h.2 e (List.mem_filter.1 he).1⟩

theorem RowStore.mem_put {m : RowStore} {y : Nat} {row : List Word} {e : Nat × List Word} :
    e ∈ RowStore.put m y row → e = (y, row) ∨ e ∈ m := by
  induction m with
  | nil => simp [RowStore.put]
  | cons a m ih =>
    obtain ⟨k, r⟩ := a
    unfold RowStore.put
    split
    · simp
    · split
      · simp only [List.mem_cons]; tauto
      · simp only [List.mem_cons]
        rintro (rfl | h)
        · simp
        · rcases ih h with h | h
          · exact .inl h
          · exact .inr (.inr h)

/-- Listing a row that does not read as unwritten keeps the canonical form. -/
theorem RowStore.wf_put {width : Nat} {m : RowStore} {y : Nat} {row : List Word} (hr : row ≠ blackRow width)
    (h : RowStore.wf width m = true) : RowStore.wf width (RowStore.put m y row) = true := by
  rw [wf_iff] at h ⊢
  refine ⟨?_, ?_⟩
  · obtain ⟨hp, -⟩ := h
    induction m with
    | nil => simp [RowStore.put]
    | cons a m ih =>
      obtain ⟨k, r⟩ := a
      simp only [List.map_cons, List.pairwise_cons] at hp
      unfold RowStore.put
      split
      · rename_i hlt
        simp only [List.map_cons, List.pairwise_cons, List.mem_cons]
        refine ⟨?_, hp⟩
        rintro b (rfl | hb)
        · exact hlt
        · exact lt_trans hlt (hp.1 b hb)
      · split
        · rename_i he
          simp only [List.map_cons, List.pairwise_cons]
          exact ⟨he ▸ hp.1, hp.2⟩
        · rename_i h1 h2
          simp only [List.map_cons, List.pairwise_cons]
          refine ⟨?_, ih hp.2⟩
          intro b hb
          obtain ⟨e, he, rfl⟩ := List.mem_map.1 hb
          rcases mem_put he with rfl | he
          · show k < y
            omega
          · exact hp.1 _ (List.mem_map_of_mem he)
  · intro e he
    rcases mem_put he with rfl | he
    · exact hr
    · exact h.2 e he

/-- Writing a row keeps the canonical form. -/
theorem RowStore.wf_write {width : Nat} {m : RowStore} (y : Nat) (row : List Word)
    (h : RowStore.wf width m = true) : RowStore.wf width (RowStore.write m width y row) = true := by
  unfold RowStore.write
  split
  · exact wf_filter _ h
  · rename_i hr; exact wf_put hr h

theorem RowStore.read_put (m : RowStore) (width y z : Nat) (row : List Word)
    (h : (m.map (·.1)).Pairwise (· < ·)) :
    RowStore.read (RowStore.put m y row) width z = if z = y then row else RowStore.read m width z := by
  induction m with
  | nil => simp only [RowStore.put, RowStore.read]; split <;> split <;> simp_all
  | cons a m ih =>
    obtain ⟨k, r⟩ := a
    simp only [List.map_cons, List.pairwise_cons] at h
    unfold RowStore.put
    split
    · simp only [RowStore.read]
      by_cases hz : z = y
      · subst hz; simp
      · simp [hz, Ne.symm hz]
    · split
      · rename_i he
        subst he
        simp only [RowStore.read]
        by_cases hz : z = y
        · subst hz; simp
        · simp [hz, Ne.symm hz]
      · simp only [RowStore.read, ih h.2]
        by_cases hk : k = z
        · subst hk
          simp only [if_true]
          split
          · omega
          · rfl
        · simp [hk]

theorem RowStore.read_absent {m : RowStore} {width y : Nat} (h : ∀ e ∈ m, e.1 ≠ y) :
    RowStore.read m width y = blackRow width := by
  induction m with
  | nil => rfl
  | cons a m ih =>
    obtain ⟨k, r⟩ := a
    have hk : k ≠ y := h (k, r) (by simp)
    simp only [RowStore.read, hk, if_false]
    exact ih (fun e he => h e (by simp [he]))

theorem RowStore.read_erase (m : RowStore) (width y z : Nat) :
    RowStore.read (RowStore.erase m y) width z = if z = y then blackRow width else RowStore.read m width z := by
  split
  · rename_i h
    subst h
    exact read_absent (fun e he => by simpa [RowStore.erase] using (List.mem_filter.1 he).2)
  · rename_i hz
    unfold RowStore.erase
    induction m with
    | nil => rfl
    | cons a m ih =>
      obtain ⟨k, r⟩ := a
      by_cases hk : k = y
      · subst hk
        simp only [ne_eq, not_true_eq_false, decide_false, Bool.false_eq_true, not_false_eq_true,
          List.filter_cons_of_neg, RowStore.read, Ne.symm hz, if_false]
        exact ih
      · simp only [ne_eq, hk, not_false_eq_true, decide_true, List.filter_cons_of_pos, RowStore.read]
        rw [ih]

/-- A row read after a write: the row written in its place, every other row as before. -/
theorem RowStore.read_write {m : RowStore} {width : Nat} (y z : Nat) (row : List Word)
    (h : RowStore.wf width m = true) :
    RowStore.read (RowStore.write m width y row) width z = if z = y then row else RowStore.read m width z := by
  unfold RowStore.write
  split
  · rename_i hr; rw [read_erase, hr]
  · exact read_put _ _ _ _ _ ((wf_iff _ _).1 h).1

/-- The rows of a still as it is composed, with the black ones left out, stand in canonical form. -/
theorem RowStore.wf_composed (width : Nat) (f : Nat → List Word) (n : Nat) :
    RowStore.wf width (((List.range n).map (fun v => (v, f v))).filter (fun e => e.2 ≠ blackRow width)) = true := by
  rw [wf_iff]
  refine ⟨?_, fun e he => by simpa using (List.mem_filter.1 he).2⟩
  refine List.Pairwise.sublist (List.filter_sublist.map _) ?_
  simp only [List.map_map]
  have : ((fun x : Nat × List Word => x.1) ∘ fun v => (v, f v)) = id := rfl
  rw [this, List.map_id]
  exact List.pairwise_lt_range

end Sys2Proof.Machine
end

