-- ==== Sys2Proof/Laws/PictureKeeps.lean ====
section
/-! SUPPORT. Link, frame store, screen, engine and table operations keep the frame buffers canonical, rejected-run within
HOLD_LIMIT, and the phase tables within their bounds. -/

namespace Sys2Proof.Machine

/-! ### Learning stays within the bounds (R120, R121) -/

theorem clamp_bounds (v lo hi : Int) (h : lo ≤ hi) : lo ≤ clamp v lo hi ∧ clamp v lo hi ≤ hi := by
  unfold clamp
  split
  · omega
  · split <;> omega

/-- A step of one part in 2^k towards a value ends between the old value and it. -/
theorem step_between (t v : Int) (k : Nat) :
    (t ≤ v → t ≤ t + (v - t) / 2 ^ k ∧ t + (v - t) / 2 ^ k ≤ v) ∧
      (v ≤ t → v ≤ t + (v - t) / 2 ^ k ∧ t + (v - t) / 2 ^ k ≤ t) := by
  have hp : (0 : Int) < 2 ^ k := by positivity
  have h1 : (1 : Int) ≤ 2 ^ k := hp
  constructor
  · intro h
    have a : 0 ≤ (v - t) / 2 ^ k := Int.ediv_nonneg (by omega) (by omega)
    have b : (v - t) / 2 ^ k ≤ v - t := Int.ediv_le_self _ (by omega)
    omega
  · intro h
    have a : (v - t) / 2 ^ k ≤ 0 := by
      have := Int.ediv_le_ediv hp (show v - t ≤ 0 by omega)
      simpa using this
    have b : v - t ≤ (v - t) / 2 ^ k := by
      rw [Int.le_ediv_iff_mul_le hp]
      nlinarith
    omega

theorem Bin.empty_inRange : Bin.empty.InRange := by
  intro ax; cases ax <;> simp [Bin.empty, axisBound]

/-- Teaching a value within the bounds keeps a bin within its bounds. -/
theorem Bin.teach_inRange {b : Bin} (h : b.InRange) (ax : Axis) (limit shift : Nat) {v : Int}
    (hv : -(16 * axisBound ax) ≤ v ∧ v ≤ 16 * axisBound ax) : (b.teach ax limit shift v).InRange := by
  intro ay
  obtain ⟨h1, h2, h3⟩ := h ay
  unfold Bin.teach
  split
  · refine ⟨h1, h2, ?_⟩
    simp only [XY.get_set]
    split
    · rename_i e; subst e; omega
    · exact h3
  · simp only [XY.get_set]
    split
    · rename_i e
      subst e
      refine ⟨?_, ?_, by omega⟩
      · unfold Bin.learned
        dsimp only
        split
        · exact hv.1
        · have := step_between (b.value.get ay) v (min (b.conf.get ay) shift)
          rcases le_total (b.value.get ay) v with g | g
          · have := this.1 g; omega
          · have := this.2 g; omega
      · unfold Bin.learned
        dsimp only
        split
        · exact hv.2
        · have := step_between (b.value.get ay) v (min (b.conf.get ay) shift)
          rcases le_total (b.value.get ay) v with g | g
          · have := this.1 g; omega
          · have := this.2 g; omega
    · exact ⟨h1, h2, h3⟩

theorem PhaseTable.bin_inRange {t : PhaseTable} (h : t.InRange) (k : Nat) : (t.bin k).InRange := by
  unfold PhaseTable.bin
  rw [List.getD_eq_getElem?_getD]
  cases e : t.bins[k]? with
  | none => exact Bin.empty_inRange
  | some b => exact h.2 b (List.mem_of_getElem? e)

theorem PhaseTable.teach_inRange {t : PhaseTable} (h : t.InRange) (ax : Axis) (k limit shift : Nat) {v : Int}
    (hv : -(16 * axisBound ax) ≤ v ∧ v ≤ 16 * axisBound ax) : (t.teach ax k limit shift v).InRange := by
  have hb : (t.bins.set k ((t.bin k).teach ax limit shift v)).length = Config.bins ∧
      ∀ b ∈ t.bins.set k ((t.bin k).teach ax limit shift v), b.InRange := by
    refine ⟨by simpa using h.1, fun b hb => ?_⟩
    rcases List.mem_or_eq_of_mem_set hb with hb | rfl
    · exact h.2 b hb
    · exact Bin.teach_inRange (PhaseTable.bin_inRange h k) ax limit shift hv
  unfold PhaseTable.teach
  dsimp only
  split <;> exact hb

theorem PhaseTable.learnAxis_inRange {t : PhaseTable} (h : t.InRange) (info : Option PhaseInfo) (limit shift : Nat)
    (meas : XY AxisMeas) (sh : XY Int) (ax : Axis)
    (hv : (meas.get ax).result = .valid → -(16 * axisBound ax) ≤ sh.get ax ∧ sh.get ax ≤ 16 * axisBound ax) :
    (t.learnAxis info limit shift meas sh ax).InRange := by
  unfold PhaseTable.learnAxis
  split
  · exact h
  · split
    · rename_i hm; exact PhaseTable.teach_inRange h ax _ limit shift (hv hm)
    · exact h

theorem PhaseTable.learn_inRange {t : PhaseTable} (h : t.InRange) (info : Option PhaseInfo) (limit shift : Nat)
    (meas : XY AxisMeas) (sh : XY Int)
    (hv : ∀ ax, (meas.get ax).result = .valid → -(16 * axisBound ax) ≤ sh.get ax ∧ sh.get ax ≤ 16 * axisBound ax) :
    (t.learn info limit shift meas sh).InRange :=
  PhaseTable.learnAxis_inRange (PhaseTable.learnAxis_inRange h info limit shift meas sh .x (hv .x)) info limit shift
    meas sh .y (hv .y)

theorem PhaseTable.clear_inRange (t : PhaseTable) : t.clear.InRange := by
  refine ⟨by simp [PhaseTable.clear], fun b hb => ?_⟩
  simp only [PhaseTable.clear, List.mem_replicate] at hb
  rw [hb.2]; exact Bin.empty_inRange

theorem axisBound_nonneg (ax : Axis) : 0 ≤ axisBound ax := by cases ax <;> decide

/-- The applied shift of a VALID axis lies within its bounds (R94). -/
theorem RunningJob.shift_bounds (j : RunningJob) (ax : Axis) (ds : Nat) {m : AxisMeas} (h : m.result = .valid) :
    -(16 * axisBound ax) ≤ j.shift ax ds m ∧ j.shift ax ds m ≤ 16 * axisBound ax := by
  unfold RunningJob.shift
  rw [h]
  have := axisBound_nonneg ax
  exact clamp_bounds _ _ _ (by omega)

/-! ### The screen (R73–R78) -/

/-- Judging keeps rejected-run within HOLD_LIMIT (R76). -/
theorem Screen.judge_run {sc : Screen} {limit : Nat} (h : sc.rejectedRun ≤ limit) (ratio q : Nat) :
    (sc.judge ratio limit q).rejectedRun ≤ limit := by
  unfold Screen.judge
  dsimp only
  split
  · simp
  · split
    · rename_i hv
      unfold Screen.verdict at hv
      split at hv
      · cases hv
      · split at hv
        · cases hv
        · split at hv
          · simpa using ‹sc.rejectedRun < limit›
          · cases hv
    · simp
    · simp
    · exact h

/-! ### Slots keep their pixels -/

@[simp] theorem Slot.freed_pixels (k : Slot) : k.freed.pixels = k.pixels := rfl
@[simp] theorem Slot.mapRecord_pixels (k : Slot) (f : Record → Record) : (k.mapRecord f).pixels = k.pixels := rfl

/-- The buffers of a ring in canonical form. -/
def Ring.RowsOk (r : Ring) : Prop := ∀ k : SlotId, RowStore.wf Config.frameWidth (r.slots.get k).pixels = true

theorem Ring.rowsOk_set {r : Ring} (h : r.RowsOk) (k : SlotId) {v : Slot}
    (hv : RowStore.wf Config.frameWidth v.pixels = true) (j : SlotId) :
    RowStore.wf Config.frameWidth ((r.slots.set k v).get j).pixels = true := by
  rw [PerSlot.get_set]; split
  · exact hv
  · exact h j

theorem Ring.rowsOk_free {r : Ring} (h : r.RowsOk) (k : SlotId) : (r.free k).RowsOk := fun j =>
  Ring.rowsOk_set h k (v := (r.slots.get k).freed) (h k) j

theorem Ring.rowsOk_fill {r : Ring} (h : r.RowsOk) (k : SlotId) (rec : Record) : (r.fill k rec).RowsOk := fun j =>
  Ring.rowsOk_set h k (v := { r.slots.get k with state := .filling, record := some rec, profiles := zeroProfiles })
    (h k) j

/-! ### The three invariants together -/

/-- The frame buffers, the screens and the tables are as they should be. -/
structure State.PictureOk (s : State) : Prop where
  rings : ∀ c : CamId, (s.ring c).RowsOk
  screens : s.ScreensOk
  tables : s.TablesOk

namespace State.PictureOk

variable {s : State}

theorem setLink (h : s.PictureOk) (c : CamId) (v : Link) : (s.setLink c v).PictureOk :=
  ⟨h.rings, h.screens, h.tables⟩
theorem setContext (h : s.PictureOk) (c : CamId) (v : Context) : (s.setContext c v).PictureOk :=
  ⟨h.rings, h.screens, h.tables⟩
theorem setEngine (h : s.PictureOk) (v : Engine) : (s.setEngine v).PictureOk := ⟨h.rings, h.screens, h.tables⟩
theorem setMi (h : s.PictureOk) (v : Interface) : (s.setMi v).PictureOk := ⟨h.rings, h.screens, h.tables⟩
theorem setArbiter (h : s.PictureOk) (v : Arbiter) : (s.setArbiter v).PictureOk := ⟨h.rings, h.screens, h.tables⟩
theorem ask (h : s.PictureOk) (m : Message) : (s.ask m).PictureOk := h.setMi _
theorem notice (h : s.PictureOk) (code : FaultCode) (a b : Nat) : (s.notice code a b).PictureOk := h.ask _
theorem setRing (h : s.PictureOk) (c : CamId) {v : Ring} (hv : v.RowsOk) : (s.setRing c v).PictureOk := by
  refine ⟨fun d => ?_, h.screens, h.tables⟩
  rw [State.setRing_ring]; split
  · exact hv
  · exact h.rings d
theorem setSlot (h : s.PictureOk) (c : CamId) (k : SlotId) {v : Slot}
    (hv : RowStore.wf Config.frameWidth v.pixels = true) : (s.setSlot c k v).PictureOk :=
  h.setRing c (fun j => Ring.rowsOk_set (h.rings c) k hv j)
theorem setScreen (h : s.PictureOk) (c : CamId) {v : Screen} (hv : v.rejectedRun ≤ (s.camParams c).holdLimit) :
    (s.setScreen c v).PictureOk := by
  refine ⟨h.rings, fun d => ?_, h.tables⟩
  rw [State.setScreen_screen]
  split
  · rename_i e; subst e; exact hv
  · exact h.screens d
theorem setTable (h : s.PictureOk) (c : CamId) {v : PhaseTable} (hv : v.InRange) : (s.setTable c v).PictureOk := by
  refine ⟨h.rings, h.screens, fun d => ?_⟩
  rw [State.setTable_table]; split
  · exact hv
  · exact h.tables d

theorem pixels (h : s.PictureOk) (c : CamId) (k : SlotId) :
    RowStore.wf Config.frameWidth (s.slot c k).pixels = true := h.rings c k

theorem setLastPhase (h : s.PictureOk) (c : CamId) (i : Option PhaseInfo) : (s.setLastPhase c i).PictureOk :=
  h.setTable c (v := { s.table c with lastPhase := i }) (h.tables c)
theorem clearTable (h : s.PictureOk) (c : CamId) : (s.clearTable c).PictureOk :=
  h.setTable c (PhaseTable.clear_inRange _)
theorem clearIfBound (h : s.PictureOk) (e : ChanId) (c : CamId) : (s.clearIfBound e c).PictureOk := by
  unfold State.clearIfBound
  split
  · exact h.clearTable _
  · exact h
theorem clearBound (h : s.PictureOk) (e : ChanId) : (s.clearBound e).PictureOk :=
  (((h.clearIfBound e .cam0).clearIfBound e .cam1).clearIfBound e .cam2).clearIfBound e .cam3
theorem phaseWrites (h : s.PictureOk) (j : Job) (i : Option PhaseInfo) (p : XY (Option Int)) :
    (s.phaseWrites j i p).PictureOk :=
  (h.setSlot j.cam j.slot (v := (s.slot j.cam j.slot).mapRecord (fun r => r.withPhase i p))
    (h.pixels j.cam j.slot)).setLastPhase _ _
theorem startJob (h : s.PictureOk) (j : Job) : (s.startJob j).PictureOk :=
  ((h.phaseWrites _ _ _).setContext _ _).setEngine _
theorem startNext (h : s.PictureOk) : s.startNext.PictureOk := by
  unfold State.startNext
  split
  · exact (h.setEngine _).startJob _
  · exact h
theorem supersede (h : s.PictureOk) (j : Job) : (s.supersede j).PictureOk := by
  have h1 : ∀ (u : State) (sh : XY Int), u.PictureOk →
      (u.setSlot j.cam j.slot ((u.slot j.cam j.slot).unmeasured sh)).PictureOk :=
    fun u sh g => g.setSlot j.cam j.slot (g.pixels j.cam j.slot)
  have h2 : ∀ u : State, u.PictureOk → (u.setRing j.cam (u.ring j.cam).countSuperseded).PictureOk :=
    fun u g => g.setRing j.cam (g.rings j.cam)
  exact h2 _ (h1 _ _ (h.phaseWrites _ _ _))
theorem withdraw (h : s.PictureOk) (c : CamId) : (s.withdraw c).PictureOk := by
  unfold State.withdraw
  split
  · exact h
  · exact (h.setEngine _).supersede _
theorem handOff (h : s.PictureOk) (j : Job) : (s.handOff j).PictureOk := ((h.withdraw _).setEngine _).startNext
theorem completeWith (h : s.PictureOk) (j : RunningJob) {k : Slot}
    (hk : RowStore.wf Config.frameWidth k.pixels = true) (r : Record) : (s.completeWith j k r).PictureOk := by
  have hl : ∀ (t : PhaseTable) (l sf ds : Nat), t.InRange →
      (t.learn j.phase l sf (j.measurement k r) (j.shifts ds (j.measurement k r))).InRange := by
    intro t l sf ds ht
    refine PhaseTable.learn_inRange ht _ _ _ _ _ (fun ax hm => ?_)
    rw [RunningJob.shifts, XY.get_ofAxis]
    exact RunningJob.shift_bounds _ _ _ hm
  refine State.PictureOk.startNext (State.PictureOk.setEngine (State.PictureOk.setSlot
    (State.PictureOk.setTable (h.setContext _ _) _ (hl _ _ _ _ (h.tables _))) _ _ ?_) _)
  exact hk
theorem completeJob (h : s.PictureOk) : s.completeJob.PictureOk := by
  unfold State.completeJob
  split
  · exact h
  · split
    · exact (h.setEngine _).startNext
    · exact h.completeWith _ (h.pixels _ _) _
theorem engineLinkDown (h : s.PictureOk) (c : CamId) : (s.engineLinkDown c).PictureOk := h.setContext _ _
theorem refRefresh (h : s.PictureOk) (c : CamId) : (s.refRefresh c).PictureOk := h.setContext _ _
theorem fillSlot (h : s.PictureOk) (c : CamId) (k : SlotId) : (s.fillSlot c k).PictureOk :=
  h.setRing c (Ring.rowsOk_fill (h.rings c) k _)
theorem counted (h : s.PictureOk) (c : CamId) : (s.setRing c (s.ring c).counted).PictureOk := h.setRing c (h.rings c)
theorem overrun (h : s.PictureOk) (c : CamId) : (s.overrun c).PictureOk :=
  (h.setRing c (v := { s.ring c with overruns := bump (s.ring c).overruns }) (h.rings c)).notice _ _ _
theorem scoredEnd (h : s.PictureOk) (c : CamId) (k : SlotId) (n : Nat) (v : Verdict) :
    (s.scoredEnd c k n v).PictureOk := by
  have h1 : (s.setSlot c k ((s.slot c k).scored n v)).PictureOk := h.setSlot c k (h.pixels c k)
  have h2 : ∀ u : State, u.PictureOk → (u.setRing c ((u.ring c).countVerdict v)).PictureOk := by
    intro u g
    refine g.setRing c ?_
    cases v <;> exact g.rings c
  exact (h2 _ h1).handOff _
theorem wellFormedEnd (h : s.PictureOk) (c : CamId) (k : SlotId) (n : Nat) : (s.wellFormedEnd c k n).PictureOk := by
  unfold State.wellFormedEnd
  dsimp only
  have h1 : State.PictureOk _ := h.setScreen c (Screen.judge_run (h.screens c)
    (s.camParams c).acceptRatio (s.slot c k).q)
  split
  · exact h1.setRing c (Ring.rowsOk_free (h1.rings c) k)
  · exact h1.scoredEnd _ _ _ _
theorem storeFrameEnd (h : s.PictureOk) (c : CamId) (w : Bool) (n : Nat) : (s.storeFrameEnd c w n).PictureOk := by
  unfold State.storeFrameEnd
  split
  · exact h
  · split
    · exact h.wellFormedEnd _ _ _
    · exact h.setRing c (Ring.rowsOk_free (h.rings c) _)
theorem storeLinkDown (h : s.PictureOk) (c : CamId) : (s.storeLinkDown c).PictureOk := by
  unfold State.storeLinkDown
  split
  · exact h
  · exact h.setRing c (Ring.rowsOk_free (h.rings c) _)
theorem screenLinkDown (h : s.PictureOk) (c : CamId) : (s.screenLinkDown c).PictureOk :=
  h.setScreen c (v := { s.screen c with clearRef := 0, rejectedRun := 0 }) (Nat.zero_le _)
theorem failAttempt (h : s.PictureOk) (c : CamId) : (s.failAttempt c).PictureOk := by
  unfold State.failAttempt
  dsimp only
  split
  · exact h.setLink _ _
  · exact (h.setLink _ _).notice _ _ _
theorem linkDown (h : s.PictureOk) (c : CamId) : (s.linkDown c).PictureOk :=
  ((h.storeLinkDown c).engineLinkDown c).screenLinkDown c
theorem leaveLocked (h : s.PictureOk) (c : CamId) : (s.leaveLocked c).PictureOk :=
  (((h.setLink _ _).notice _ _ _).linkDown c).setLink _ _
theorem forceTapUpdate (h : s.PictureOk) (c : CamId) : (s.forceTapUpdate c).PictureOk := by
  unfold State.forceTapUpdate
  split
  · exact h.setLink _ _
  · exact h
theorem linkReset (h : s.PictureOk) (c : CamId) : (s.linkReset c).PictureOk := by
  unfold State.linkReset
  split
  · exact h.leaveLocked c
  all_goals first | exact h.setLink _ _ | exact h
theorem marker (h : s.PictureOk) (c : CamId) (n : Nat) {f : State → State}
    (hf : ∀ u : State, u.PictureOk → (f u).PictureOk) : (s.marker c n f).PictureOk := by
  unfold State.marker
  split
  · exact hf _ (h.setLink _ _)
  · exact h.setLink _ _
  all_goals exact h
theorem conceal (h : s.PictureOk) (c : CamId) (k : SlotId) : (s.conceal c k).PictureOk :=
  (h.setSlot c k (v := (s.slot c k).settle _ _) (RowStore.wf_write _ _ (h.pixels c k))).setLink _ _
theorem concealMany (h : s.PictureOk) (c : CamId) (k : SlotId) (n : Nat) : (s.concealMany c k n).PictureOk := by
  induction n generalizing s with
  | zero => exact h
  | succ n ih => exact ih (h.conceal c k)
theorem settleGood (h : s.PictureOk) (c : CamId) (k : SlotId) (row : List Word) : (s.settleGood c k row).PictureOk :=
  (h.setSlot c k (v := (s.slot c k).settle _ _) (RowStore.wf_write _ _ (h.pixels c k))).setLink _ _
theorem closeLine (h : s.PictureOk) (c : CamId) : (s.closeLine c).PictureOk := h.setLink _ _
theorem openAt (h : s.PictureOk) (c : CamId) (n : Nat) (b : Bool) : (s.openAt c n b).PictureOk := h.setLink _ _
theorem settleOpenBad (h : s.PictureOk) (c : CamId) (k : SlotId) : (s.settleOpenBad c k).PictureOk := by
  unfold State.settleOpenBad
  split
  · exact h
  · exact (h.conceal c k).closeLine c
theorem countMalformed (h : s.PictureOk) (c : CamId) (m : Bool) : (s.countMalformed c m).PictureOk := by
  unfold State.countMalformed
  dsimp only
  split
  · split
    · exact h.setLink _ _
    · exact ((h.setLink _ _).notice _ _ _).leaveLocked c
  · exact h.setLink _ _
theorem applyPendingTap (h : s.PictureOk) (c : CamId) : (s.applyPendingTap c).PictureOk := h.setLink _ _
theorem endFrame (h : s.PictureOk) (c : CamId) (k : SlotId) (b : Bool) : (s.endFrame c k b).PictureOk := by
  have h' (l : Link) := ((h.settleOpenBad c k).setLink c l).storeFrameEnd c
  cases b
  · exact ((h' _ _ _).applyPendingTap c).countMalformed _ _
  · exact (h' _ _ _).countMalformed _ _
theorem beginFrame (h : s.PictureOk) (c : CamId) (n : Byte) : (s.beginFrame c n).PictureOk := by
  unfold State.beginFrame
  dsimp only
  split
  · exact ((((h.setLink _ _).counted _).fillSlot _ _).setLink _ _).setLink _ _
  · exact ((((h.setLink _ _).counted _).setLink _ _).overrun _).setLink _ _
theorem takeFrameStart (h : s.PictureOk) (c : CamId) (n : Byte) : (s.takeFrameStart c n).PictureOk := by
  unfold State.takeFrameStart
  split
  · exact h.beginFrame _ _
  · exact h.beginFrame _ _
  · dsimp only
    split
    · exact (h.endFrame _ _ _).beginFrame _ _
    · exact h.endFrame _ _ _
theorem takeFrameEnd (h : s.PictureOk) (c : CamId) : (s.takeFrameEnd c).PictureOk := by
  unfold State.takeFrameEnd
  split
  · exact h.applyPendingTap _
  · exact (h.setLink _ _).applyPendingTap _
  · exact h.endFrame _ _ _
theorem takeLineStart (h : s.PictureOk) (c : CamId) (k : SlotId) (n : Nat) : (s.takeLineStart c k n).PictureOk := by
  unfold State.takeLineStart
  dsimp only
  have h' := h.settleOpenBad c k
  split
  · exact h'
  · split
    · exact h'.openAt _ _ _
    · split
      · exact (h'.concealMany _ _ _).openAt _ _ _
      · exact h'.openAt _ _ _
theorem whileReceiving (h : s.PictureOk) (c : CamId) {f : SlotId → State → State}
    (hf : ∀ (k : SlotId) (u : State), u.PictureOk → (f k u).PictureOk) : (s.whileReceiving c f).PictureOk := by
  unfold State.whileReceiving
  split
  · exact hf _ _ h
  all_goals exact h
theorem takeLineEnd (h : s.PictureOk) (c : CamId) (k : SlotId) (w : Word) : (s.takeLineEnd c k w).PictureOk := by
  unfold State.takeLineEnd
  split
  · exact h
  · split
    · exact (h.settleGood _ _ _).closeLine _
    · exact (h.conceal _ _).closeLine _
theorem clearCameraCounts (h : s.PictureOk) (c : CamId) : (s.clearCameraCounts c).PictureOk := by
  unfold State.clearCameraCounts
  refine State.PictureOk.setTable (State.PictureOk.setContext (State.PictureOk.setRing (h.setLink _ _) _ ?_) _ _) _ ?_
  · exact h.rings c
  · exact h.tables c
theorem whenBit (h : s.PictureOk) (bits : Word) (i : Nat) {f : State → State}
    (hf : ∀ u : State, u.PictureOk → (f u).PictureOk) : (Machine.whenBit bits i f s).PictureOk := by
  unfold Machine.whenBit
  split
  · exact hf _ h
  · exact h
theorem cameraCommands (h : s.PictureOk) (c : CamId) (bits : Word) : (Machine.cameraCommands c bits s).PictureOk :=
  ((((h.whenBit bits 0 (fun _ g => g.linkReset c)).whenBit bits 1 (fun _ g => g.refRefresh c)).whenBit bits 2
    (fun _ g => g.clearTable c)).whenBit bits 3 (fun _ g => g.forceTapUpdate c)).whenBit bits 4
    (fun _ g => g.clearCameraCounts c)

end State.PictureOk

/-! ### States that agree keep the invariants -/

/-- The invariants depend on the slots' pixels, the screens, the tables and the parameters alone. -/
theorem State.PictureOk.of_machineFrame {s t : State} (h : s.PictureOk) (f : s.MachineFrame t) : t.PictureOk := by
  refine ⟨fun c k => ?_, fun c => ?_, fun c => ?_⟩
  · have e : ((t.ring c).slots.get k).pixels = ((s.ring c).slots.get k).pixels := by
      have := congrArg (fun r : Ring => (r.slots.get k).pixels) (f.rings c)
      simpa [Ring.apartFromPins] using this
    rw [e]; exact h.rings c k
  · simp only [State.screen, State.camParams, f.screens, f.params]; exact h.screens c
  · simp only [State.table, f.tables]; exact h.tables c

end Sys2Proof.Machine
end

