-- ==== Sys2Proof/Laws/Pins.lean ====
section
/-! SUPPORT. Pins taken and released: what one pin does to the frame store, and how pins over several holders add up
(`State.RepinnedBy`). -/

namespace Sys2Proof.Machine

variable {s t : State} {taken released : List (CamId × Option SlotId)}

theorem holdersOf_cons (h : CamId × Option SlotId) (l : List (CamId × Option SlotId)) (c : CamId) (k : SlotId) :
    holdersOf (h :: l) c k = holdersOf l c k + if h = (c, some k) then 1 else 0 := by
  unfold holdersOf
  rw [List.count_cons]
  by_cases e : h = (c, some k) <;> simp [e]

theorem State.setSlot_ring (s : State) (c : CamId) (k : SlotId) (v : Slot) (d : CamId) :
    (s.setSlot c k v).ring d = { s.ring d with slots := if d = c then (s.ring d).slots.set k v else (s.ring d).slots } := by
  by_cases h : d = c
  · subst h; rw [if_pos rfl]; unfold State.setSlot; rw [State.setRing_ring]; simp
  · rw [if_neg h]; unfold State.setSlot; rw [State.setRing_ring]; simp [h]

theorem State.setSlot_slot (s : State) (c : CamId) (k : SlotId) (v : Slot) (d : CamId) (j : SlotId) :
    (s.setSlot c k v).slot d j = if d = c ∧ j = k then v else s.slot d j := by
  unfold State.slot
  rw [State.setSlot_ring]
  by_cases h : d = c
  · subst h
    by_cases hj : j = k
    · subst hj; rw [if_pos rfl, if_pos ⟨rfl, rfl⟩]; cases j <;> rfl
    · rw [if_pos rfl, if_neg (by simp [hj])]; revert hj; cases j <;> cases k <;> intro hj <;> first | rfl | exact absurd rfl hj
  · rw [if_neg h, if_neg (by simp [h])]

/-- A change of one slot's pin count changes nothing else. -/
theorem State.RepinnedBy.setPins (h : s.RepinnedBy t taken released) (c : CamId) (k : SlotId) (n : Nat)
    {taken' released' : List (CamId × Option SlotId)}
    (hn : n + holdersOf released' c k = (s.slot c k).pins + holdersOf taken' c k)
    (hr : ∀ d j, (d, j) ≠ (c, k) → holdersOf released' d j = holdersOf released d j ∧
      holdersOf taken' d j = holdersOf taken d j) :
    s.RepinnedBy (t.setSlot c k { t.slot c k with pins := n }) taken' released' := by
  intro d
  obtain ⟨h1, h2⟩ := h d
  refine ⟨?_, fun j => ?_⟩
  · rw [State.setSlot_ring]; rw [h1]
  · rw [State.setSlot_slot]
    obtain ⟨g1, g2⟩ := h2 j
    by_cases e : d = c ∧ j = k
    · obtain ⟨rfl, rfl⟩ := e
      rw [if_pos ⟨rfl, rfl⟩]
      exact ⟨by rw [g1], hn⟩
    · rw [if_neg e]
      obtain ⟨a, b⟩ := hr d j (by simpa using e)
      rw [a, b]
      exact ⟨g1, g2⟩

theorem State.RepinnedBy.refl (s : State) : s.RepinnedBy s [] [] := fun _ => ⟨rfl, fun _ => ⟨rfl, rfl⟩⟩

/-- One more pin. -/
theorem State.RepinnedBy.pin (h : s.RepinnedBy t taken released) (c : CamId) (k : SlotId) :
    s.RepinnedBy (t.pinSlot c k) ((c, some k) :: taken) released := by
  refine h.setPins c k _ ?_ ?_
  · have := ((h c).2 k).2
    rw [holdersOf_cons]; simp at this ⊢; omega
  · intro d j e; rw [holdersOf_cons, if_neg (by intro x; apply e; simpa using x.symm)]; exact ⟨rfl, rfl⟩

/-- One pin fewer, of a slot that carries one. -/
theorem State.RepinnedBy.unpin (h : s.RepinnedBy t taken released) (c : CamId) (k : SlotId)
    (hp : 0 < (t.slot c k).pins) : s.RepinnedBy (t.unpinSlot c k) taken ((c, some k) :: released) := by
  refine h.setPins c k _ ?_ ?_
  · have := ((h c).2 k).2
    rw [holdersOf_cons]; simp at this ⊢; omega
  · intro d j e; rw [holdersOf_cons, if_neg (by intro x; apply e; simpa using x.symm)]; exact ⟨rfl, rfl⟩

/-- Holders of no slot count for nothing; a holder both taken and released cancels; order does not matter. -/
theorem State.RepinnedBy.congr (h : s.RepinnedBy t taken released) {taken' released' : List (CamId × Option SlotId)}
    (he : ∀ c k, holdersOf taken' c k + holdersOf released c k = holdersOf taken c k + holdersOf released' c k) :
    s.RepinnedBy t taken' released' := fun c => ⟨(h c).1, fun k => ⟨((h c).2 k).1, by
      have := ((h c).2 k).2; have := he c k; omega⟩⟩

/-- A pinned slot keeps a pin while another holder of it is released. -/
theorem State.RepinnedBy.pins_pos (h : s.RepinnedBy t taken released) {c : CamId} {k : SlotId}
    (hp : holdersOf released c k < (s.slot c k).pins + holdersOf taken c k) : 0 < (t.slot c k).pins := by
  have := ((h c).2 k).2; omega

/-- The pin of a window that lets go. -/
theorem State.RepinnedBy.releasePin (h : s.RepinnedBy t taken released) (w : Window)
    (hp : ∀ k, w.slot = some k → holdersOf released w.cam k < (s.slot w.cam k).pins + holdersOf taken w.cam k) :
    s.RepinnedBy (t.releasePin w) taken ((w.cam, w.slot) :: released) := by
  unfold State.releasePin
  cases hw : w.slot with
  | none => exact h.congr (fun c k => by rw [holdersOf_cons]; simp)
  | some k => exact h.unpin _ _ (h.pins_pos (hp k hw))

/-- The pins of a window that selects its frame. -/
theorem State.RepinnedBy.selectFor (h : s.RepinnedBy t taken released) (w : Window) (c : CamId)
    (hp : ∀ k, w.slot = some k → holdersOf released w.cam k < (s.slot w.cam k).pins + holdersOf taken w.cam k) :
    s.RepinnedBy (t.selectFor w c).1 (((t.selectFor w c).2.cam, (t.selectFor w c).2.slot) :: taken)
      ((w.cam, w.slot) :: released) := by
  unfold State.selectFor
  cases (t.ring c).newestReady? with
  | some k =>
    simp only []
    split
    · exact h.congr (fun d j => by rw [holdersOf_cons, holdersOf_cons]; dsimp only; omega)
    · refine (h.pin c k).releasePin w (fun j hj => ?_)
      rw [holdersOf_cons]
      have := hp j hj
      omega
  | none =>
    simp only []
    split
    · exact h.congr (fun d j => by rw [holdersOf_cons, holdersOf_cons]; dsimp only; omega)
    · exact (h.releasePin w hp).congr (fun d j => by simp [holdersOf_cons])

/-- Other parts of the state do not matter. -/
theorem State.RepinnedBy.of_rings (h : s.RepinnedBy t taken released) {s' t' : State} (hs : s'.rings = s.rings)
    (ht : t'.rings = t.rings) : s'.RepinnedBy t' taken released := by
  intro c
  have a : s'.ring c = s.ring c := by simp [State.ring, hs]
  have b : t'.ring c = t.ring c := by simp [State.ring, ht]
  have a' : ∀ k, s'.slot c k = s.slot c k := fun k => by simp [State.slot, a]
  have b' : ∀ k, t'.slot c k = t.slot c k := fun k => by simp [State.slot, b]
  rw [a, b]
  refine ⟨(h c).1, fun k => ?_⟩
  rw [a', b']
  exact (h c).2 k

end Sys2Proof.Machine
end

