-- ==== Sys2Proof/WellFormed.lean ====
section
/-! DEFINITION. Well-formed commands: those the outside can send under the row they stand under. A command that fails a
check here still has its meaning in `exec`; the checks say which row an event belongs to. -/

namespace Sys2Proof

/-- Whether a frame is one the bus can carry: an eleven-bit or an extended identifier, at most eight data bytes, none in
a remote frame. -/
def CanFrame.wellFormed (f : CanFrame) : Bool :=
  decide (f.ident < if f.extended then 2 ^ 29 else 2 ^ 11) && decide (f.data.length ≤ 8) && (!f.remote || f.data.isEmpty)

/-- Whether a parameter number has a row of its own in the table: the camera parameters LINK_ENABLE, TAP_OVERRIDE,
TAP_GATE, PHASE_SOURCE and HOLD_LIMIT, the channel parameters ENABLE, MODE, CPR, MAX_PERIOD, OUT_THRESHOLD and
IN_THRESHOLD, the arbiter's parameters and the requester slots. -/
def ownRow (n : Nat) : Bool :=
  (decide (0x100 ≤ n) && decide (n < 0x180) && [0, 2, 4, 8, 14].contains (n % 0x20)) ||
    (decide (0x200 ≤ n) && decide (n < 0x260) && [0, 1, 4, 11, 12, 13].contains (n % 0x20)) ||
    (decide (0x400 ≤ n) && decide (n < 0x405)) || (decide (0x410 ≤ n) && decide (n < 0x41C))

/-- The checks, command by command. -/
def Instr.wellFormed : Instr → Bool
  | .canFrameIgnored f => f.wellFormed
  | .unfreeze _ _ action => action != 1
  | .paramWrite _ number _ => !ownRow number.toNat
  | .busOffRecovery runs => decide (1 ≤ runs)
  | .powerOn _ => true
  | .resetLine _ => true
  | .setupLineChange _ => true
  | .referenceLock _ _ => true
  | .acquireTimeout _ => true
  | .gateEnd _ => true
  | .referenceUnlock _ => true
  | .backoffEnd _ => true
  | .signalLoss _ => true
  | .frameStart _ _ _ => true
  | .lineStart _ _ => true
  | .pixelWord _ _ => true
  | .lineEnd _ _ => true
  | .frameEnd _ _ => true
  | .jobCompletion => true
  | .quadratureEdge _ _ _ => true
  | .indexEdge _ _ => true
  | .stopWatchExpiry _ => true
  | .outputFrameStart _ => true
  | .viewRequest _ _ _ _ _ _ _ => true
  | .viewRelease _ _ => true
  | .timedExpiry _ _ => true
  | .keepaliveExpiry _ => true
  | .dwellExpiry _ => true
  | .freeze _ _ => true
  | .copyCompletion => true
  | .paramRead _ _ => true
  | .keepalive _ => true
  | .linkReset _ _ _ => true
  | .refRefresh _ _ _ => true
  | .tableClear _ _ _ => true
  | .forceTapUpdate _ _ _ _ => true
  | .clearCounts _ _ _ => true
  | .clearPosition _ _ _ => true
  | .armIndex _ _ _ => true
  | .releaseCapture _ _ _ => true
  | .clearCountsEncoder _ _ _ => true
  | .softReset _ _ _ => true
  | .linkEnable _ _ _ => true
  | .tapOverride _ _ _ _ => true
  | .tapGate _ _ _ _ => true
  | .holdLimit _ _ _ => true
  | .phaseSource _ _ _ => true
  | .enable _ _ _ => true
  | .mode _ _ _ => true
  | .cpr _ _ _ => true
  | .maxPeriod _ _ _ => true
  | .outThreshold _ _ _ => true
  | .inThreshold _ _ _ => true
  | .dwell _ _ => true
  | .keepaliveParamWrite _ _ => true
  | .augerPriority _ _ => true
  | .augerCamera _ _ => true
  | .augerOutput _ _ => true
  | .slotNodeCode _ _ _ => true
  | .slotMaxPriority _ _ _ => true
  | .viewStatusTimer => true
  | .cameraTimer => true
  | .encoderTimer => true
  | .frameSent => true
  | .transmitError => true
  | .receiveError => true
  | .busJoin => true
  | .wordClock _ => true
  | .resetLineActive => true
  | .command _ _ _ => true

end Sys2Proof
end

