-- ==== Sys2Proof/Tests/Slice0.lean ====
section
/-! SUPPORT. Tests: the well-formedness checks, small single commands with results taken from the manual's worked
sequences, tables and rules, and for each statement with premises a named witness of concrete states and operands that
meet them. -/

namespace Sys2Proof.Tests

open Sys2Proof Sys2Proof.Machine

set_option Elab.async false

/-! ### A kit of small states -/

/-- The state after a command. -/
def after (i : Instr) (s : State) : State :=
  match exec i s with
  | .next t => t
  | .fault _ => s
  | .refused _ => s

/-- Ten seconds after power-on, the controller on the bus, the queue empty, and a frame in the transmit buffer, so that
messages stay visible in the queue. -/
def live : State :=
  { State.reset with
    timebase := 10000000
    mi := { State.reset.mi with busState := .errorActive, queue := [], txBuffer := some ⟨0x209, [], false⟩ } }

/-- The SETUP line is active. -/
def setUp (s : State) : State := { s with setup := true }

def onLink (f : Link → Link) (s : State) : State := s.setLink .cam0 (f (s.link .cam0))
def onRing (f : Ring → Ring) (s : State) : State := s.setRing .cam0 (f (s.ring .cam0))
def onChan (e : ChanId) (f : Channel → Channel) (s : State) : State := s.setChannel e (f (s.channel e))
def onChanParams (e : ChanId) (f : ChanParams → ChanParams) (s : State) : State :=
  s.setParams { s.params with chans := s.params.chans.set e (f (s.chanParams e)) }
def onCamParams (f : CamParams → CamParams) (s : State) : State :=
  s.setParams { s.params with cams := s.params.cams.set .cam0 (f (s.camParams .cam0)) }
def onOutput (o : OutId) (f : Compositor → Compositor) (s : State) : State := s.setOutput o (f (s.output o))
def onMi (f : Interface → Interface) (s : State) : State := s.setMi (f s.mi)

/-- Camera 0's link in LOCKED. -/
def locked : State := onLink (fun l => { l with state := .locked, refLocked := true }) live

/-- A record of camera 0 as a frame start leaves it. -/
def rec0 (seq : Nat) : Record :=
  { camera := .cam0, seq := seq, capture := 9990000, snapshot := none, concealed := none, qx := none, q := none
    verdict := none, meas := none, phase := none, prediction := ⟨none, none⟩, shift := none }

/-- Camera 0 receives a frame into slot 0, next position `p`. -/
def receiving (p : Nat) : State :=
  onRing (fun r => { r with
    order := [.s0], seqCounter := 1
    slots := r.slots.set .s0 { r.slots.s0 with
      state := .filling, record := some (rec0 1), profiles := ⟨List.replicate 800 0, List.replicate 480 0⟩ } })
    (onLink (fun l => { l with progress := .receiving .s0, nextPos := p }) locked)

/-- A record of camera 0 whose job is done. -/
def recDone (seq : Nat) : Record :=
  { rec0 seq with
    concealed := some 0, qx := some 0, q := some 0, verdict := some .accepted
    meas := some ⟨⟨.reference, none⟩, ⟨.reference, none⟩⟩, shift := some ⟨0, 0⟩ }

/-- Camera 0's slot 0 is READY and unpinned. -/
def ready : State :=
  onRing (fun r => { r with
    order := [.s0], seqCounter := 1
    slots := r.slots.set .s0 { r.slots.s0 with
      state := .ready, record := some (recDone 1)
      profiles := ⟨List.replicate 800 0, List.replicate 480 0⟩ } }) locked

/-- Output A shows camera 0's slot 0, which it pins. -/
def shown : State :=
  onRing (fun r => { r with slots := r.slots.set .s0 { r.slots.s0 with pins := 1 } })
    (onOutput .a (fun oc => { oc with win1 := ⟨.cam0, some .s0, 48, 32, .live⟩ }) ready)

/-- A copy of output A waits or runs: its record. -/
def copyRecord : CopyRecord := ⟨.a, .k1, 0x10⟩

/-- The copy of output A runs, from camera 0's slot 0, which the window and the copy pin. -/
def copying : State :=
  onRing (fun r => { r with slots := r.slots.set .s0 { r.slots.s0 with pins := 2 } })
    (shown.setStillUnit { shown.stillUnit with
      running := some (copyRecord, .full ⟨.cam0, some .s0, 48, 32⟩) })

def entry1 : Entry := ⟨.full .cam0, 5, 0, 9000000, 1⟩
def entry2 : Entry := ⟨.full .cam1, 5, 100, 9100000, 2⟩

/-- Requester 1 holds output A at priority 5 with its dwell RUNNING; requester 2 is the candidate. -/
def contested : State :=
  live.setArbiter { live.arbiter with
    receipts := 2
    lastHeard := live.arbiter.lastHeard.set .k1 (some 9000000)
    table := ⟨{ Requests.vacant with masters := ⟨some entry1, some entry2, none, none, none, none⟩ }, Requests.vacant⟩
    outs := ⟨⟨some (.master .k1), 9000000, true, some (.master .k2), 1, 1⟩, .initial⟩ }

/-- The same with the dwell ELAPSED and no candidate. -/
def dwellElapsed : State :=
  contested.setArbiter { contested.arbiter with
    table := ⟨{ Requests.vacant with masters := ⟨some entry1, none, none, none, none, none⟩ }, Requests.vacant⟩
    outs := ⟨⟨some (.master .k1), 9000000, false, none, 1, 1⟩, .initial⟩ }

/-- The controller is in BUS_OFF, its buffer empty. -/
def busOff (s : State) : State := onMi (fun mi => { mi with busState := .busOff, txBuffer := none, txErrors := 256 }) s

/-! ### Well-formed commands -/

theorem test_wellFormed_frame_too_long :
    Instr.wellFormed (.canFrameIgnored ⟨false, false, 0x200, List.replicate 9 0⟩) = false := by decide
theorem test_wellFormed_identifier_too_wide :
    Instr.wellFormed (.canFrameIgnored ⟨false, false, 0x800, []⟩) = false := by decide
theorem test_wellFormed_remote_with_data :
    Instr.wellFormed (.canFrameIgnored ⟨false, true, 0x200, [0]⟩) = false := by decide
theorem test_wellFormed_unfreeze_that_freezes : Instr.wellFormed (.unfreeze 0x10 0 1) = false := by decide
theorem test_wellFormed_write_with_a_row_of_its_own :
    Instr.wellFormed (.paramWrite 0x10 0x0100 1) = false ∧ Instr.wellFormed (.paramWrite 0x10 0x041B 1) = false := by
  decide
theorem test_wellFormed_no_recessive_run : Instr.wellFormed (.busOffRecovery 0) = false := by decide
theorem test_wellFormed_accepts :
    Instr.wellFormed (.canFrameIgnored ⟨false, false, 0x7FF, List.replicate 8 0⟩) = true ∧
      Instr.wellFormed (.unfreeze 0x10 0 0) = true ∧ Instr.wellFormed (.paramWrite 0x10 0x0101 1) = true ∧
      Instr.wellFormed (.busOffRecovery 1) = true := by decide

/-! ### Words, checks and numbers -/

/-- No row of the table has bits (spec/opcode_table.json). -/
theorem test_decode_none : decodeTableWord 16 0 = none := rfl
theorem test_withFetchWord : State.reset.withFetchWord 16 0 = State.reset := rfl

/-- The published check value of the CRC of R3 over the bytes of "123456789". -/
theorem test_crc_check_value :
    [0x31#8, 0x32#8, 0x33#8, 0x34#8, 0x35#8, 0x36#8, 0x37#8, 0x38#8, 0x39#8].foldl crcByte 0xFFFF#16 = 0x29B1#16 := by
  decide +kernel
/-- High byte first (R3). -/
theorem test_crc_word : crcWord 0xFFFF#16 0x3132#16 = crcByte (crcByte 0xFFFF#16 0x31#8) 0x32#8 := by decide +kernel
/-- Halves round up (chapter 00). -/
theorem test_nearest : nearest 68 16 = 4 ∧ nearest (-28) 16 = -2 ∧ nearest (-23) 16 = -1 ∧ nearest 944 100 = 9 := by
  decide
/-- Differences of timestamps are modulo 2^32 (R1). -/
theorem test_elapsed_wraps : elapsed 0xFFFFFFFF#32 1#32 = 2 := by decide
/-- Numbers of the worked series of writes (chapter 11). -/
theorem test_paramOf : paramOf 0x0101 = some (.cam .cam0 .linkRate) ∧ paramOf 0x022D = some (.chan .ec1 .inThreshold) ∧
    paramOf 0x0180 = none ∧ paramOf 0x041B = some (.maxPriority .k6) := by decide +kernel

/-! ### Power, the RESET and SETUP lines, and the step -/

theorem test_step_takes_front :
    step { live with pending := [.setupLineChange true, .resetLineActive] } =
      .next { live with pending := [.resetLineActive], setup := true } := rfl
theorem test_idle_step : step live = .next { live with timebase := 10000001 } := rfl
/-- The queue of a start holds VIEW STATUS of A and B (R202). -/
theorem test_powerOn : after (.powerOn lowLevels) contested = State.reset := rfl
theorem test_resetLine : (after (.resetLine { lowLevels with idStrap := 2 }) contested).mi.base = 0x240 := by
  decide +kernel
theorem test_resetLineActive : (after .resetLineActive copying).held = true ∧
    (after .resetLineActive copying).stillUnit.running = none := by decide +kernel
theorem test_setupLineChange : after (.setupLineChange true) live = setUp live := rfl

/-! ### Camera links, by the worked sequences of chapter 01 -/

theorem test_referenceLock : ((after (.referenceLock .cam2 61) live).link .cam2).state = .verify ∧
    ((after (.referenceLock .cam2 61) live).link .cam2).tap = 61 := by decide +kernel
theorem test_acquireTimeout :
    let s := after (.acquireTimeout .cam0) (onLink (fun l => { l with attempts := 3 }) live)
    (s.link .cam0).state = .failed ∧ s.mi.queue = [.faultNotice .linkFailed 0 1] := by decide +kernel
theorem test_gateEnd_fails :
    let s := after (.gateEnd .cam0)
      (onLink (fun l => { l with state := .verify, gateRate := 25000, wordClocks := 24870 }) live)
    (s.link .cam0).state = .acquire ∧ (s.link .cam0).attempts = 1 := by decide +kernel
theorem test_gateEnd_passes :
    let s := after (.gateEnd .cam0)
      (onLink (fun l => { l with state := .verify, gateRate := 25000, wordClocks := 24930, attempts := 1 }) live)
    (s.link .cam0).state = .locked ∧ (s.link .cam0).attempts = 1 := by decide +kernel
theorem test_referenceUnlock :
    let s := after (.referenceUnlock .cam0) (receiving 5)
    (s.link .cam0).state = .acquire ∧ (s.ring .cam0).aborted = 1 := by decide +kernel
theorem test_backoffEnd :
    ((after (.backoffEnd .cam0) (onLink (fun l => { l with state := .failed, attempts := 4 }) live)).link .cam0).attempts =
      0 := by decide +kernel
theorem test_signalLoss : (after (.signalLoss .cam0) locked).mi.queue = [.faultNotice .linkLost 0 1] := by
  decide +kernel
theorem test_wordClock :
    ((after (.wordClock .cam0) (onLink (fun l => { l with state := .verify }) live)).link .cam0).wordClocks = 1 := by
  decide +kernel
theorem test_linkReset :
    let s := after (.linkReset 0x10 .cam0 0) locked
    s.mi.queue = [.faultNotice .linkLost 0 1, .requestResult 0x10 0 .command .ok] := by decide +kernel
theorem test_linkEnable :
    let s := after (.linkEnable 0x10 .cam0 0) locked
    (s.link .cam0).state = .down ∧ s.mi.queue = [.paramReply 0x10 0x0100 .ok 0] := by decide +kernel
/-- The forced tap update of the worked sequence, gated. -/
theorem test_forceTapUpdate_gated :
    let s := after (.forceTapUpdate 0x10 .cam0 0 59) (onLink (fun l => { l with tap := 57 }) locked)
    (s.link .cam0).tap = 57 ∧ (s.link .cam0).updatePending = true := by decide +kernel
/-- The same ungated: the open line is bad. -/
theorem test_forceTapUpdate_ungated :
    let s := after (.forceTapUpdate 0x10 .cam0 0 59) (onCamParams (fun p => { p with tapGate := false })
      (onLink (fun l => { l with tap := 57, openLine := some ⟨200, 0, 0, false, [], false⟩ }) (receiving 200)))
    (s.link .cam0).tap = 59 ∧ (s.link .cam0).openLine = some ⟨200, 0, 0, true, [], false⟩ := by decide +kernel
theorem test_tapOverride :
    ((after (.tapOverride 0x10 .cam0 57 59) (setUp locked)).link .cam0).updatePending = true := by decide +kernel
theorem test_tapGate :
    ((after (.tapGate 0x10 .cam0 0 59) (onLink (fun l => { l with updatePending := true }) locked)).link .cam0).tap =
      59 := by decide +kernel

/-! ### Frames and lines -/

theorem test_frameStart :
    let s := after (.frameStart .cam0 7 0) locked
    (s.link .cam0).progress = .receiving .s0 ∧ ((s.slot .cam0 .s0).record.map (·.seq)) = some 1 := by decide +kernel
/-- LINE-START with number 105 at next position 103 conceals two lines (worked sequence). -/
theorem test_lineStart :
    let s := after (.lineStart .cam0 105) (onLink (fun l => { l with concealed := 1, lastGood := some 102 }) (receiving 103))
    (s.link .cam0).nextPos = 105 ∧ (s.link .cam0).concealed = 3 := by decide +kernel
theorem test_pixelWord :
    ((after (.pixelWord .cam0 0x3132) (onLink (fun l => { l with openLine := some ⟨0, 0, 0xFFFF, false, [], false⟩ })
      (receiving 0))).link .cam0).openLine.map (·.count) = some 1 := by decide +kernel
/-- A control word that is no marker, within an open line: the data words after it are discarded until the next control
word, and the line itself goes on (R2). -/
theorem test_wordClock_skips :
    let s := after (.pixelWord .cam0 0x3132) (after (.wordClock .cam0)
      (onLink (fun l => { l with openLine := some ⟨0, 7, 0xFFFF, false, [], false⟩ }) (receiving 0)))
    (s.link .cam0).openLine = some ⟨0, 7, 0xFFFF, false, [], true⟩ := by decide +kernel
/-- A line of 799 words is concealed (worked sequence). -/
theorem test_lineEnd_short :
    let s := after (.lineEnd .cam0 0) (onLink (fun l => { l with concealed := 3, openLine := some ⟨479, 799, 0, false, [], false⟩ })
      (receiving 479))
    (s.link .cam0).nextPos = 480 ∧ (s.link .cam0).concealed = 4 := by decide +kernel
theorem test_lineEnd_good :
    let s := after (.lineEnd .cam0 5)
      (onLink (fun l => { l with openLine := some ⟨9, 800, 5, false, List.replicate 800 0x2080, false⟩ }) (receiving 9))
    RowStore.read (s.slot .cam0 .s0).pixels 800 9 = List.replicate 800 0x2080 ∧ (s.link .cam0).lastGood = some 9 := by
  decide +kernel
/-- Eight lines missing at the tail: malformed although within CONCEAL_LIMIT (worked sequence). -/
theorem test_frameEnd_malformed :
    let s := after (.frameEnd .cam0 0) (receiving 472)
    (s.slot .cam0 .s0).state = .free ∧ (s.link .cam0).consecMalformed = 1 := by decide +kernel
/-- A FRAME-END taken in LOCKED applies the pending update, although the third malformed frame then ends the lock (R15, R20). -/
theorem test_frameEnd_third_pending :
    let l := (after (.frameEnd .cam0 59) (onLink (fun l => { l with tap := 57, updatePending := true, consecMalformed := 2 })
      (receiving 472))).link .cam0
    (l.state, l.tap, l.updatePending) = (.acquire, 59, false) := by decide +kernel
/-- The first screened frame seeds the screen, and its job starts (R74, R87). -/
theorem test_frameEnd_wellFormed :
    let s := after (.frameEnd .cam0 0) (receiving 480)
    (s.slot .cam0 .s0).state = .scored ∧ (s.engine.running.map (·.job)) = some ⟨.cam0, .s0⟩ := by decide +kernel

/-! ### The screen, by the worked sequences of chapter 04 -/

/-- Frames 8,102, 8,103 and 8,112. -/
theorem test_screen_verdicts :
    (Screen.mk 3005000 0 0 .none).judge 160 15 2000000 = ⟨2942187, 0, 2000000, .accepted⟩ ∧
      (Screen.mk 2942187 0 0 .none).judge 160 15 1700000 = ⟨2942187, 1, 1700000, .rejected⟩ ∧
      (Screen.mk 2922625 3 0 .none).judge 160 3 1020000 = ⟨1020000, 0, 1020000, .forced⟩ := by decide +kernel
/-- HOLD_LIMIT written below rejected-run lowers it (R78). -/
theorem test_holdLimit :
    ((after (.holdLimit 0x10 .cam0 3) (live.setScreen .cam0 ⟨5, 5, 0, .none⟩)).screen .cam0).rejectedRun = 3 := by
  decide +kernel

/-! ### Registration and phase tables, by the worked sequences of chapters 05 and 06 -/

/-- The registration of camera 1 that chapter 05 works through. -/
def job1 : RunningJob :=
  { job := ⟨.cam1, .s2⟩, phase := some ⟨118, 9, 10, 9⟩, prediction := ⟨some 54, some (-20)⟩, reference := none
    refOff := ⟨1, 0⟩, drift := ⟨10, -3⟩, lastS := ⟨60, -24⟩, searchR := ⟨6, 6⟩, matchRatio := 16 }

theorem test_search_range : (job1.centre .x, job1.lo .x, job1.hi .x) = (3, -3, 9) ∧
    (job1.centre .y, job1.lo .y, job1.hi .y) = (-1, -7, 5) := by decide +kernel
theorem test_axis_results : axisResult (-3) 9 (4, 120000) 2400000 16 = .valid ∧
    axisResult (-8) 8 (8, 0) 1 16 = .edge ∧ axisResult (-3) 9 (4, 150001) 2400000 16 = .poor := by decide +kernel
/-- Of two equal sums one on each side of the centre, the smaller displacement is best. -/
theorem test_tie : beats 3 (2, 120000) (4, 120000) = true ∧ beats 3 (4, 120000) (2, 120000) = false := by decide
theorem test_drift_and_shift : job1.newDrift .x 5 4 = 12 ∧ job1.newDrift .y 5 (-2) = -4 ∧
    job1.shift .x 5 ⟨.valid, some 4⟩ = 68 ∧ job1.shift .y 5 ⟨.valid, some (-2)⟩ = -28 := by decide +kernel
/-- Crop origins of that frame. -/
theorem test_crop : cropX 48 68 = 52 ∧ cropY 32 (-28) = 30 := by decide +kernel

theorem test_phase : leadOf (-6000) 400 200000 .up = -12 ∧ phaseAt 130 (-12) 400 = 118 ∧
    phaseInfo 400 118 = ⟨118, 9, 10, 9⟩ ∧ binFraction 400 118 = 7 := by decide +kernel
/-- Across the index: bin 31 to bin 0. -/
theorem test_phase_seam : phaseInfo 360 355 = ⟨355, 31, 0, 0⟩ ∧ binFraction 360 355 = 8 ∧
    leadOf 30000 360 10000 .up = 1080 ∧ phaseAt 355 1080 360 = 355 := by decide +kernel
theorem test_prediction : predictAxis ⟨⟨40, -16⟩, ⟨9, 5⟩⟩ ⟨⟨72, -25⟩, ⟨6, 4⟩⟩ 4 7 .x = some 54 ∧
    predictAxis ⟨⟨40, -16⟩, ⟨9, 5⟩⟩ ⟨⟨72, -25⟩, ⟨6, 4⟩⟩ 4 7 .y = some (-20) := by decide +kernel
theorem test_teach : ((Bin.mk ⟨40, -16⟩ ⟨9, 5⟩).teach .x 64 3 68).value.x = 43 ∧
    ((Bin.mk ⟨40, -16⟩ ⟨9, 5⟩).teach .y 64 3 (-28)).value.y = -18 ∧
    (Bin.mk ⟨43, 0⟩ ⟨10, 0⟩).teach .x 64 3 140 = ⟨⟨43, 0⟩, ⟨8, 0⟩⟩ := by decide +kernel
/-- A job without a reference creates one, and its slot is READY with S = 0 (R98). -/
theorem test_jobCompletion :
    let s := after .jobCompletion (after (.frameEnd .cam0 0) (receiving 480))
    (s.slot .cam0 .s0).state = .ready ∧ (s.context .cam0).refreshes = 1 ∧
      ((s.slot .cam0 .s0).record.bind (·.shift)) = some ⟨0, 0⟩ := by decide +kernel
theorem test_refRefresh : ((after (.refRefresh 0x10 .cam0 0) live).context .cam0).refreshPending = true := by
  decide +kernel
theorem test_tableClear : ((after (.tableClear 0x10 .cam0 0) live).table .cam0).clearCount = 1 := by decide +kernel
/-- The clear count read is that of the counts cleared after it: the bits act in order (R190). -/
theorem test_clearCounts : ((after (.clearCounts 0x10 .cam0 4) live).table .cam0).clearCount = 0 := by decide +kernel
theorem test_phaseSource :
    let s := after (.phaseSource 0x10 .cam0 1) (setUp live)
    (s.table .cam0).clearCount = 1 ∧ s.mi.queue = [.paramReply 0x10 0x0108 .ok 1] := by decide +kernel

/-! ### Encoder channels, by the worked sequences of chapter 02 -/

/-- The rotor channel, enabled, HOMED at 1,050,000 µs, the time 1,250,000 µs. -/
def rotor : State :=
  { onChan .ec0 (fun ch => { ch with state := .homed, lastIndex := some 1050000 })
      (onChanParams .ec0 (fun p => { p with enable := true }) live) with timebase := 1250000 }

/-- The auger channel, HOMED, IN, at position 799. -/
def auger : State :=
  onChan .ec2 (fun ch => { ch with state := .homed, auger := .inside, position := 799, lastIndex := some 9000000 })
    (onChanParams .ec2 (fun p => { p with enable := true }) live)

/-- B rises with A low: DOWN, against the last direction, suppressed by hysteresis. -/
theorem test_quadratureEdge_against :
    let ch := (after (.quadratureEdge .ec0 false true) rotor).channel .ec0
    (ch.position, ch.lastDir, ch.dirChange) = (0, .down, true) := by decide +kernel
/-- A rises with B low: UP; at 800 the auger is OUT and its view is granted (R169). -/
theorem test_quadratureEdge_auger :
    let s := after (.quadratureEdge .ec2 true false) auger
    ((s.channel .ec2).position, (s.channel .ec2).auger) = (800, .outside) ∧
      (s.outGrant .a).holder = some .auger ∧ (s.output .a).grant = some (.full .cam1) := by decide +kernel
theorem test_indexEdge_period :
    let s := after (.indexEdge .ec0 true) rotor
    ((s.channel .ec0).state, (s.channel .ec0).period) = (.running, some 200000) ∧ s.mi.queue = [.encoderReport .ec0] := by
  decide +kernel
/-- The slip of −2 counts that EVERY corrects. -/
theorem test_indexEdge_slip :
    let s := after (.indexEdge .ec0 true) { onChan .ec0 (fun ch => { ch with
      state := .running, period := some 200000, position := 358, lastIndex := some 1250000 }) rotor with
      timebase := 1450200 }
    ((s.channel .ec0).state, (s.channel .ec0).period, (s.channel .ec0).position, (s.channel .ec0).captureCount) =
        (.running, some 200200, 0, 358) ∧ s.mi.queue = [.faultNotice .encoderSlip 0 1] := by decide +kernel
theorem test_stopWatchExpiry :
    let s := after (.stopWatchExpiry .ec0) { rotor with timebase := 3050000 }
    (s.channel .ec0).state = .stopped ∧ s.mi.queue = [.faultNotice .encoderStopped 0 1, .encoderReport .ec0] := by
  decide +kernel
theorem test_clearPosition :
    ((after (.clearPosition 0x10 .ec2 0) auger).channel .ec2).position = 0 := by decide +kernel
theorem test_armIndex : ((after (.armIndex 0x10 .ec0 0) live).channel .ec0).armed = true := by decide +kernel
theorem test_releaseCapture :
    ((after (.releaseCapture 0x10 .ec0 0) (onChan .ec0 (fun ch => { ch with captureHeld := true }) live)).channel
      .ec0).captureHeld = false := by decide +kernel
theorem test_clearCountsEncoder :
    ((after (.clearCountsEncoder 0x10 .ec0 0) (onChan .ec0 (fun ch => { ch with slipCount := 9 }) live)).channel
      .ec0).slipCount = 0 := by decide +kernel
theorem test_enable :
    let s := after (.enable 0x10 .ec2 1) live
    ((s.channel .ec2).state, (s.channel .ec2).armed) = (.unhomed, true) ∧
      s.mi.queue = [.encoderReport .ec2, .paramReply 0x10 0x0240 .ok 1] := by decide +kernel
theorem test_mode :
    let s := after (.mode 0x10 .ec2 0) (onChan .ec2 (fun ch => { ch with position := -1 }) (setUp live))
    (s.channel .ec2).position = 359 ∧ (s.chanParams .ec2).mode = .modular := by decide +kernel
theorem test_cpr :
    let s := after (.cpr 0x10 .ec0 15) (onChan .ec0 (fun ch => { ch with position := 100 }) (setUp live))
    (s.channel .ec0).position = 4 ∧ s.mi.queue = [.paramReply 0x10 0x0204 .clamped 16] := by decide +kernel
theorem test_maxPeriod :
    let s := after (.maxPeriod 0x10 .ec0 100000) rotor
    (s.channel .ec0).state = .stopped := by decide +kernel
/-- OUT_THRESHOLD written 500: IN_THRESHOLD follows to 499 (R40). -/
theorem test_outThreshold :
    let s := after (.outThreshold 0x10 .ec1 500) (setUp live)
    (s.chanParams .ec1).inThreshold = 499 ∧ s.mi.queue = [.paramReply 0x10 0x022C .clamped 500] := by decide +kernel
/-- IN_THRESHOLD written 900 with OUT_THRESHOLD 800 (worked series of writes, chapter 11). -/
theorem test_inThreshold :
    (after (.inThreshold 0x10 .ec1 900) (setUp live)).mi.queue = [.paramReply 0x10 0x022D .clamped 799] := by
  decide +kernel

/-! ### Outputs, stills and the arbiter, by the worked sequences of chapters 07, 08 and 09 -/

theorem test_outputFrameStart :
    let s := after (.outputFrameStart .a) ready
    (s.output .a).win1 = ⟨.cam0, some .s0, 48, 32, .live⟩ ∧ (s.slot .cam0 .s0).pins = 1 ∧ s.mi.queue = [.viewStatus .a] := by
  decide +kernel
/-- At the limit the frame is not stale; 20 ms later it is (chapter 07). -/
theorem test_border_stale : frameBorder (recDone 1) 300 0 (9990000 + 300000) = .live ∧
    frameBorder (recDone 1) 300 0 (9990000 + 320000) = .stale := by decide +kernel
/-- Raster spacings of 60 and 50 frames per second (R129). -/
theorem test_rasterSpacing : [rasterSpacing 60 0, rasterSpacing 60 1, rasterSpacing 60 2, rasterSpacing 50 0].sum =
    50000 + 20000 := by decide
theorem test_freeze :
    let s := after (.freeze 0x10 0) shown
    s.stillUnit.running = some (copyRecord, .full ⟨.cam0, some .s0, 48, 32⟩) ∧ (s.slot .cam0 .s0).pins = 2 := by
  decide +kernel
theorem test_unfreeze :
    let s := after (.unfreeze 0x10 0 0) copying
    (s.slot .cam0 .s0).pins = 1 ∧
      s.mi.queue = [.requestResult 0x10 0 .freeze .cancelled, .requestResult 0x10 0 .unfreeze .ok] := by decide +kernel
theorem test_copyCompletion :
    let s := after .copyCompletion copying
    (s.still .a).valid = true ∧ (s.output .a).frozen = true ∧ s.mi.queue = [.requestResult 0x10 0 .freeze .frozen] := by
  decide +kernel
/-- The unload controller's request is clamped to its maximum and waits (chapter 08, 10,400 ms). -/
theorem test_viewRequest_clamped :
    let s := after (.viewRequest 0x12 0 1 1 3 4 0) contested
    (s.entry? .a (.master .k3)).map (·.priority) = some 3 ∧ s.mi.queue = [.requestResult 0x12 0 .request .clamped] := by
  decide +kernel
theorem test_viewRequest_granted :
    let s := after (.viewRequest 0x10 1 0 2 0 6 0) live
    (s.output .b).grant = some (.full .cam2) ∧ s.mi.queue = [.viewStatus .b, .requestResult 0x10 1 .request .granted] := by
  decide +kernel
theorem test_viewRelease :
    let s := after (.viewRelease 0x10 0) contested
    (s.outGrant .a).holder = some (.master .k2) ∧ s.mi.queue = [.viewStatus .a, .requestResult 0x10 0 .release .ok] := by
  decide +kernel
theorem test_timedExpiry : (after (.timedExpiry (.master .k2) .a) contested).entry? .a (.master .k2) = none := by
  decide +kernel
theorem test_keepaliveExpiry :
    let s := after (.keepaliveExpiry .k1) contested
    s.entry? .a (.master .k1) = none ∧ s.arbiter.expiryCount.k1 = 1 := by decide +kernel
/-- The expiry takes output A from its holder and grants it to the next entry: two grant changes (R165, log entry 29). -/
theorem test_keepaliveExpiry_grants : (contested.outGrant .a).grantCount + 2 =
    ((after (.keepaliveExpiry .k1) contested).outGrant .a).grantCount := by decide +kernel
theorem test_dwellExpiry : ((after (.dwellExpiry .a) contested).outGrant .a).holder = some (.master .k2) := by
  decide +kernel
theorem test_keepalive : (after (.keepalive 0x11) live).arbiter.lastHeard.k2 = some 10000000 := by decide +kernel
theorem test_dwell : ((after (.dwell 0x10 1000) contested).outGrant .a).holder = some (.master .k2) := by decide +kernel
/-- A DWELL above the time passed: the held output's dwell, ELAPSED before, is RUNNING again (R161, log entry 18). -/
theorem test_dwell_raised : ((after (.dwell 0x10 2000) dwellElapsed).outGrant .a).dwellRunning = true := by decide +kernel
theorem test_keepaliveParamWrite :
    let s := after (.keepaliveParamWrite 0x11 300) contested
    s.entry? .a (.master .k1) = none ∧ s.arbiter.lastHeard.k2 = some 10000000 := by decide +kernel
theorem test_slotNodeCode :
    let s := after (.slotNodeCode 0x10 .k2 0x20) (setUp contested)
    s.entry? .a (.master .k2) = none ∧ s.matchNode 0x20 = some .k2 := by decide +kernel
theorem test_slotMaxPriority :
    ((after (.slotMaxPriority 0x10 .k1 3) (setUp contested)).outGrant .a).holder = some (.master .k2) := by decide +kernel

/-- The auger is OUT and holds output A. -/
def augerOut : State := after (.quadratureEdge .ec2 true false) auger

theorem test_augerPriority : (after (.augerPriority 0x10 0) augerOut).entry? .a .auger = none := by decide +kernel
theorem test_augerCamera :
    ((after (.augerCamera 0x10 3) augerOut).output .a).grant = some (.full .cam3) := by decide +kernel
theorem test_augerOutput :
    let s := after (.augerOutput 0x10 1) augerOut
    (s.output .a).grant = none ∧ (s.output .b).grant = some (.full .cam1) := by decide +kernel

/-! ### Messages, parameters and the bus, by chapters 10 and 11 -/

/-- LINK_RATE with SETUP inactive (worked series of writes). -/
theorem test_paramWrite :
    (after (.paramWrite 0x10 0x0101 30000) live).mi.queue = [.paramReply 0x10 0x0101 .locked 25000] := by decide +kernel
theorem test_paramWrite_holdLimit :
    (after (.holdLimit 0x10 .cam0 200) live).mi.queue = [.paramReply 0x10 0x010E .clamped 120] := by decide +kernel
/-- Reading the link state LOCKED, and writing it. -/
theorem test_paramRead : (after (.paramRead 0x10 0x0900) locked).mi.queue = [.paramReply 0x10 0x0900 .ok 3] ∧
    (after (.paramWrite 0x10 0x0900 0) locked).mi.queue = [.paramReply 0x10 0x0900 .readOnly 3] := by decide +kernel
theorem test_canFrameIgnored : after (.canFrameIgnored ⟨false, false, 0x207, [0x10]⟩) live = live := by decide +kernel
/-- A KEEPALIVE in a frame of its identifier, base + 6. -/
theorem test_canFrame_keepalive :
    (after (.canFrameIgnored ⟨false, false, 0x206, [0x11]⟩) live).arbiter.lastHeard.k2 = some 10000000 := by
  decide +kernel
theorem test_command_bad_target :
    (after (.command 0x10 4 1) live).mi.queue = [.requestResult 0x10 4 .command .badField] := by decide +kernel
theorem test_softReset :
    let s := after (.softReset 0x10 0 false) copying
    (s.link .cam0).state = .acquire ∧ (s.slot .cam0 .s0).state = .free ∧ s.stillUnit.running = none ∧
      s.mi.queue = [.viewStatus .a, .viewStatus .b] := by decide +kernel
/-- In BUS_OFF the queue is emptied and filled again, and the controller stays in BUS_OFF (R201). -/
theorem test_softReset_busOff :
    let s := after (.softReset 0x10 0 false) (busOff (copying.ask (.cameraStatus .cam1)))
    s.mi.busState = .busOff ∧ s.stillUnit.running = none ∧
      s.mi.queue = [.requestResult 0x10 15 .command .ok, .viewStatus .a, .viewStatus .b] := by decide +kernel
/-- The auger entry made anew asks for a VIEW STATUS; the drop count is kept although the queue was full (R191, R202). -/
theorem test_softReset_drops :
    let s := after (.softReset 0x10 0 false) (onMi (fun mi => { mi with queue := CamId.all.map .cameraStatus ++
      [.encoderReport .ec0, .encoderReport .ec1, .encoderReport .ec2, .viewStatus .b] }) augerOut)
    s.mi.dropCount = 0 ∧ (s.output .a).grant = some (.full .cam1) ∧
      s.mi.queue = [.viewStatus .a, .viewStatus .b] := by decide +kernel
theorem test_viewStatusTimer : (after .viewStatusTimer live).mi.queue = [.viewStatus .a, .viewStatus .b] := by
  decide +kernel
theorem test_cameraTimer : (after .cameraTimer live).mi.queue = [.cameraStatus .cam0] ∧
    (after .cameraTimer live).mi.camTurn = .cam1 := by decide +kernel
theorem test_encoderTimer : (after .encoderTimer rotor).mi.queue = [.encoderReport .ec0] ∧
    (after .encoderTimer live).mi.queue = [] := by decide +kernel
/-- The buffer empties and takes the next head: VIEW STATUS of A at base + 9, as at start-up (chapter 11). -/
theorem test_frameSent :
    (after .frameSent (onMi (fun mi => { mi with queue := [.viewStatus .a] }) live)).mi.txBuffer =
      some ⟨0x209, [0, 0xFF, 0, 0, 0, 4, 4, 0], false⟩ := by decide +kernel
theorem test_transmitError_busOff :
    let s := after .transmitError (onMi (fun mi => { mi with txErrors := 248 }) live)
    (s.mi.busState, s.mi.txBuffer, s.mi.busOffCount) = (.busOff, none, 1) := by decide +kernel
theorem test_receiveError :
    (after .receiveError (onMi (fun mi => { mi with rxErrors := 127 }) live)).mi.busState = .errorPassive := by
  decide +kernel
/-- The join takes the head of the queue at once (chapter 11, 0.1 ms). -/
theorem test_busJoin : (after .busJoin State.reset).mi.queue = [.viewStatus .b] := by decide +kernel
theorem test_busOffRecovery :
    let s := after (.busOffRecovery 128) (onMi (fun mi => { mi with
      busState := .busOff, txBuffer := none, dropPending := true, dropCount := 1
      queue := [.cameraStatus .cam2, .encoderReport .ec1, .viewStatus .a, .viewStatus .b, .cameraStatus .cam3,
        .encoderReport .ec0, .cameraStatus .cam0, .cameraStatus .cam1] }) live)
    s.mi.queue = [.encoderReport .ec1, .viewStatus .a, .viewStatus .b, .cameraStatus .cam3, .encoderReport .ec0,
      .cameraStatus .cam0, .cameraStatus .cam1, .faultNotice .outboundDrop 0 1] := by decide +kernel

/-! ### Witnesses: the properties of the statements' premises -/

theorem holderOk_of (t : Requests) (g : OutGrant) (h : Requester) (e : Entry) (hg : g.holder = some h)
    (he : t.get h = some e) (hp : Requester.all.all (fun r => (t.get r).all (fun e' => e'.priority ≤ e.priority)) = true)
    (hc : g.candidate.all (fun r => decide (r ≠ h) && (t.get r).any (fun e' => e'.priority = e.priority)) = true) :
    HolderOk t g := by
  unfold HolderOk
  rw [hg]
  refine ⟨e, he, fun r e' hr => ?_, fun r hr => ?_⟩
  · have := List.all_eq_true.mp hp r (by cases r with | auger => decide | master k => cases k <;> decide)
    simpa [hr] using this
  · rw [hr] at hc
    simp only [Option.all_some, Bool.and_eq_true, decide_eq_true_eq, Option.any_eq_true] at hc
    obtain ⟨h1, e', h2, h3⟩ := hc
    exact ⟨e', h2, h3, h1⟩

theorem holderOk_vacant (g : OutGrant) (hg : g.holder = none) (hc : g.candidate = none) : HolderOk .vacant g := by
  unfold HolderOk
  rw [hg]
  exact ⟨fun r => by cases r with | auger => rfl | master k => cases k <;> rfl, hc⟩

theorem ordersOk_of (s : State)
    (h : OutId.all.all (fun o => Requester.all.all (fun r => (s.entry? o r).all (fun e => e.order ≤ s.arbiter.receipts)) &&
      decide ((s.outGrant o).grantOrder ≤ s.arbiter.receipts)) = true) : s.OrdersOk := by
  intro o
  have ho := List.all_eq_true.mp h o (by cases o <;> decide)
  simp only [Bool.and_eq_true, decide_eq_true_eq] at ho
  refine ⟨fun r e hr => ?_, ho.2⟩
  have := List.all_eq_true.mp ho.1 r (by cases r with | auger => decide | master k => cases k <;> decide)
  simpa [hr] using this

theorem live_hears : live.Hears 0x10 .k1 := ⟨rfl, rfl, by decide +kernel⟩
theorem contested_hears : contested.Hears 0x10 .k1 ∧ contested.Hears 0x11 .k2 ∧ contested.Hears 0x12 .k3 :=
  ⟨⟨rfl, rfl, by decide +kernel⟩, ⟨rfl, rfl, by decide +kernel⟩, ⟨rfl, rfl, by decide +kernel⟩⟩
theorem contested_holders : contested.HoldersOk := by
  intro o
  cases o
  · exact holderOk_of _ _ (.master .k1) entry1 rfl rfl (by decide +kernel) (by decide +kernel)
  · exact holderOk_vacant _ rfl rfl
theorem contested_orders : contested.OrdersOk := ordersOk_of _ (by decide +kernel)
theorem contested_copies : contested.CopiesOk := ⟨fun _ => rfl, by decide +kernel, fun o => by cases o <;> decide +kernel⟩
theorem augerOut_holders : augerOut.HoldersOk := by
  intro o
  cases o
  · exact holderOk_of _ _ .auger ⟨.full .cam1, 4, 0, 10000000, 1⟩ (by decide +kernel) (by decide +kernel)
      (by decide +kernel) (by decide +kernel)
  · rw [show augerOut.requests .b = .vacant by decide +kernel]
    exact holderOk_vacant _ (by decide +kernel) (by decide +kernel)
theorem augerOut_orders : augerOut.OrdersOk := ordersOk_of _ (by decide +kernel)
theorem augerOut_copies : augerOut.CopiesOk :=
  ⟨fun _ => by decide +kernel, by decide +kernel, fun o => by cases o <;> decide +kernel⟩
theorem augerOut_auger : augerOut.AugerOk := by
  intro o
  cases o
  · rw [if_pos (by decide +kernel)]
    exact ⟨⟨.full .cam1, 4, 0, 10000000, 1⟩, by decide +kernel, by decide +kernel, by decide +kernel, rfl⟩
  · rw [if_neg (by decide +kernel)]; decide +kernel
theorem copying_copies : copying.CopiesOk :=
  ⟨fun h => by revert h; decide +kernel, by decide +kernel, fun o => by cases o <;> decide +kernel⟩
theorem pinsOk_of (s : State)
    (h1 : CamId.all.all (fun c => SlotId.all.all (fun k => decide ((s.slot c k).pins = holdersOf s.pinHolders c k ∧
      (s.slot c k).pins ≤ 3 ∧ (0 < (s.slot c k).pins → (s.slot c k).state = .ready)))) = true)
    (h2 : ∀ o : OutId, (s.output o).win2.slot = none)
    (h3 : ∀ r w v, s.stillUnit.running ≠ some (r, .split w v)) : s.PinsOk := by
  refine ⟨fun c k => ?_, fun o _ h => ?_, fun o h => ?_, fun r w v h => absurd h (h3 r w v)⟩
  · have := List.all_eq_true.mp h1 c (by cases c <;> decide)
    have := List.all_eq_true.mp this k (by cases k <;> decide)
    exact of_decide_eq_true this
  · rw [h2 o] at h; simp at h
  · rw [h2 o] at h; simp at h
theorem shown_pins : shown.PinsOk :=
  pinsOk_of _ (by decide +kernel) (fun o => by cases o <;> rfl) (fun _ _ _ h => by cases h)
theorem copying_pins : copying.PinsOk :=
  pinsOk_of _ (by decide +kernel) (fun o => by cases o <;> rfl) (fun _ _ _ h => by cases h)


/-- The state with one command waiting. -/
def waitingFor (i : Instr) (s : State) : State := { s with pending := [i] }

theorem defaults_inRange : Params.default.InRange := by
  refine ⟨fun id => ?_, fun c => by cases c <;> rfl, fun o => by cases o <;> exact .inr rfl, fun e => by cases e <;> decide⟩
  cases id with
  | cam c p => cases c <;> cases p <;> decide +kernel
  | chan e p => cases e <;> cases p <;> decide +kernel
  | out o p => cases o <;> cases p <;> decide +kernel
  | nodeCode k => cases k <;> decide +kernel
  | maxPriority k => cases k <;> decide +kernel
  | _ => decide +kernel

theorem auger_channels : auger.ChannelsOk := by
  intro e
  cases e <;> refine ⟨⟨?_, ?_⟩, ?_, ?_, ?_, ?_, ?_⟩ <;> decide +kernel

theorem augerOut_channels : augerOut.ChannelsOk := by
  intro e
  cases e <;> refine ⟨⟨?_, ?_⟩, ?_, ?_, ?_, ?_, ?_⟩ <;> decide +kernel

/-- A queue of eight entries with a drop owed, off the bus. -/
def fullQueue : State :=
  onMi (fun mi => { mi with
    busState := .busOff, txBuffer := none, dropPending := true, dropCount := 1
    queue := [.cameraStatus .cam2, .encoderReport .ec1, .viewStatus .a, .viewStatus .b, .cameraStatus .cam3,
      .encoderReport .ec0, .cameraStatus .cam0, .cameraStatus .cam1] }) live

/-- A bin at its bounds, in every bin of every table. -/
def edgeBin : Bin := ⟨⟨768, -512⟩, ⟨15, 0⟩⟩
def edgeTables : State := { live with tables := .same ⟨List.replicate 32 edgeBin, none, 0, 0, 0⟩ }

/-- A frame with one good row that is not black. -/
def rowWritten : State :=
  after (.lineEnd .cam0 5)
    (onLink (fun l => { l with openLine := some ⟨9, 800, 5, false, List.replicate 800 0x2080, false⟩ }) (receiving 9))

/-- Output A frozen and showing its still. -/
def frozenA : State :=
  onOutput .a (fun oc => { oc with frozen := true, mode := .still }) (live.setStill .a { live.still .a with valid := true })

/-! ### Witnesses: steps and invariants -/

theorem witness_StepTakesTheFront :
    (live.pending = [] ∧ live.held = false) ∧
      { live with held := true }.pending = [] ∧ { live with held := true }.held = true := by decide +kernel

theorem witness_ResetAndSetupLines :
    { live with held := true }.held = true ∧ (∀ l, Instr.jobCompletion ≠ .powerOn l) ∧
      (∀ l, Instr.jobCompletion ≠ .resetLine l) ∧ (∀ b, Instr.jobCompletion ≠ .setupLineChange b) ∧
      Instr.jobCompletion ≠ .resetLineActive := ⟨rfl, nofun, nofun, nofun, nofun⟩

theorem witness_QueueFormKept : (waitingFor .cameraTimer fullQueue).mi.QueueOk ∧
    ∃ t, step (waitingFor .cameraTimer fullQueue) = .next t :=
  ⟨⟨by decide +kernel, by decide +kernel, by decide +kernel⟩, _, rfl⟩

theorem witness_ValuesStayInRange : (waitingFor (.outThreshold 0x10 .ec0 0) (setUp live)).params.InRange ∧
    ∃ t, step (waitingFor (.outThreshold 0x10 .ec0 0) (setUp live)) = .next t := ⟨defaults_inRange, _, rfl⟩

/-- A rejected-run that a write of HOLD_LIMIT lowers. -/
theorem witness_ValuesStayInRange_screens :
    let s := waitingFor (.holdLimit 0x10 .cam0 3) (live.setScreen .cam0 ⟨5, 15, 0, .rejected⟩)
    s.ScreensOk ∧ ∃ t, step s = .next t := ⟨fun c => by cases c <;> decide +kernel, _, rfl⟩

/-- Tables at their bounds. -/
theorem witness_ValuesStayInRange_tables :
    let s := waitingFor (.tableClear 0x10 .cam0 0) edgeTables
    s.TablesOk ∧ ∃ t, step s = .next t := by
  refine ⟨fun c => ?_, _, rfl⟩
  have : (waitingFor (.tableClear 0x10 .cam0 0) edgeTables).table c = ⟨List.replicate 32 edgeBin, none, 0, 0, 0⟩ := by
    cases c <;> rfl
  rw [this]
  refine ⟨by simp [Config.bins], fun b hb => ?_⟩
  rw [List.eq_of_mem_replicate hb]
  intro ax
  cases ax <;> decide +kernel

theorem witness_FrameBuffersStayCanonical :
    let s := waitingFor (.lineStart .cam0 10) rowWritten
    s.RowsOk ∧ ∃ t, step s = .next t :=
  ⟨⟨fun c k => by cases c <;> cases k <;> decide +kernel, fun o => by cases o <;> decide +kernel⟩, _, rfl⟩

theorem witness_ChannelsStayLegal :
    let s := waitingFor (.quadratureEdge .ec2 true false) auger
    (∀ e, (s.chanParams e).inThreshold < (s.chanParams e).outThreshold) ∧ s.ChannelsOk ∧ ∃ t, step s = .next t :=
  ⟨fun e => by cases e <;> decide +kernel, auger_channels, _, rfl⟩

/-- The parameters of that state are within their ranges. -/
theorem witness_ChannelsStayLegal_params : (waitingFor (.quadratureEdge .ec2 true false) auger).params.InRange := by
  refine ⟨fun id => ?_, fun c => by cases c <;> rfl, fun o => by cases o <;> exact .inr rfl,
    fun e => by cases e <;> decide +kernel⟩
  cases id with
  | cam c p => cases c <;> cases p <;> decide +kernel
  | chan e p => cases e <;> cases p <;> decide +kernel
  | out o p => cases o <;> cases p <;> decide +kernel
  | nodeCode k => cases k <;> decide +kernel
  | maxPriority k => cases k <;> decide +kernel
  | _ => decide +kernel

theorem witness_HolderHasHighestPriority :
    let s := waitingFor (.dwellExpiry .a) contested
    s.HoldersOk ∧ s.OrdersOk ∧ ∃ t, step s = .next t := ⟨contested_holders, contested_orders, _, rfl⟩

theorem witness_AugerEntryFollowsChannelTwo :
    let s := waitingFor (.quadratureEdge .ec2 false false) augerOut
    s.ChannelsOk ∧ s.AugerOk ∧ ∃ t, step s = .next t := ⟨augerOut_channels, augerOut_auger, _, rfl⟩

theorem witness_FrozenOnlyWithValidStill :
    (let s := waitingFor .copyCompletion copying
     s.FreezeOk ∧ s.CopiesOk ∧ ∃ t, step s = .next t) ∧
    let s := waitingFor (.unfreeze 0x10 0 0) frozenA
    s.FreezeOk ∧ s.CopiesOk ∧ ∃ t, step s = .next t :=
  ⟨⟨fun o => by cases o <;> decide +kernel, copying_copies, _, rfl⟩, fun o => by cases o <;> decide +kernel,
    ⟨fun _ => rfl, by decide +kernel, fun o => by cases o <;> decide +kernel⟩, _, rfl⟩

theorem ringOk_of (s : State) (c : CamId) (h : ((s.ring c).order.Nodup ∧ ((s.link c).progress ≠ .none →
      (s.link c).state = .locked)) ∧ SlotId.all.all (fun k => decide ((k ∈ (s.ring c).order ↔ (s.slot c k).state ≠ .free) ∧
      ((s.slot c k).record.isSome = true ↔ (s.slot c k).state ≠ .free) ∧
      ((s.slot c k).state = .filling ↔ (s.link c).progress = .receiving k) ∧
      ((s.slot c k).state = .scored ↔ ⟨c, k⟩ ∈ s.engine.jobs))) = true) : s.RingOk c := by
  obtain ⟨⟨h1, h2⟩, h3⟩ := h
  have hk (k : SlotId) := of_decide_eq_true (List.all_eq_true.mp h3 k (by cases k <;> decide))
  exact ⟨h1, fun k => (hk k).1, fun k => (hk k).2.1, fun k => (hk k).2.2.1, h2, fun k => (hk k).2.2.2⟩

theorem witness_FrameStoreStaysConsistent :
    (let s := waitingFor (.frameEnd .cam0 0) (receiving 480)
     s.StoreOk ∧ ∃ t, step s = .next t) ∧
    let s := waitingFor .jobCompletion (after (.frameEnd .cam0 0) (receiving 480))
    s.StoreOk ∧ ∃ t, step s = .next t :=
  ⟨⟨⟨fun c => ringOk_of _ c (by cases c <;> decide +kernel), by decide +kernel, by decide +kernel, by decide +kernel⟩, _, rfl⟩,
    ⟨fun c => ringOk_of _ c (by cases c <;> decide +kernel), by decide +kernel, by decide +kernel, by decide +kernel⟩, _, rfl⟩

theorem witness_PinCountsStayExact :
    let s := waitingFor .copyCompletion copying
    s.PinsOk ∧ ∃ t, step s = .next t := ⟨copying_pins, _, rfl⟩

/-! ### Witnesses: camera links -/

def inVerify (words : Nat) : State :=
  onLink (fun l => { l with state := .verify, gateRate := 25000, wordClocks := words, timerStart := 9999000 }) live
def inFailed : State := onLink (fun l => { l with state := .failed, attempts := 4, timerStart := 8000000 }) live
def inAcquire (attempts : Nat) : State := onLink (fun l => { l with attempts := attempts, timerStart := 9999000 }) live
def inDown : State := onLink (fun l => { l with state := .down }) live
def linkOff (s : State) : State := onCamParams (fun p => { p with linkEnable := false }) s
def ungated (s : State) : State := onCamParams (fun p => { p with tapGate := false }) s

theorem witness_LinkTraining :
    (live.held = false ∧ (live.link .cam0).state = .acquire ∧ (live.link .cam0).openLine = none) ∧
    (locked.held = false ∧ (locked.link .cam0).state ≠ .acquire) ∧
    (∀ n ∈ [24875, 25125], let s := inVerify n
      s.held = false ∧ (s.link .cam0).state = .verify ∧ 1000 ≤ (s.timebase - (s.link .cam0).timerStart).toNat ∧
        (s.link .cam0).gateRate ≤ (s.link .cam0).wordClocks + (s.link .cam0).gateRate / 200 ∧
        (s.link .cam0).wordClocks ≤ (s.link .cam0).gateRate + (s.link .cam0).gateRate / 200) ∧
    (inFailed.held = false ∧ (inFailed.link .cam0).state = .failed ∧
      2000000 ≤ (inFailed.timebase - (inFailed.link .cam0).timerStart).toNat) := by decide +kernel

theorem witness_FailedAttempt :
    (let s := inAcquire 2
     let t := s.setLink .cam0 { s.link .cam0 with
       state := .acquire, attempts := 3, timerStart := s.timebase, refLocked := false
       updatePending := false, progress := .none, openLine := none }
     s.held = false ∧ ((s.link .cam0).attempts + 1 < 4 → t = s.setLink .cam0 { s.link .cam0 with
       state := .acquire, attempts := (s.link .cam0).attempts + 1, timerStart := s.timebase, refLocked := false
       updatePending := false, progress := .none, openLine := none }) ∧ ¬4 ≤ (s.link .cam0).attempts + 1 ∧
     (s.link .cam0).state = .acquire ∧ 1000 ≤ (s.timebase - (s.link .cam0).timerStart).toNat) ∧
    (∀ n ∈ [24874, 25126], let s := onLink (fun l => { l with attempts := 3 }) (inVerify n)
     let t := (s.setLink .cam0 { s.link .cam0 with
       state := .failed, attempts := 4, timerStart := s.timebase, refLocked := false, failureCount := 1 }).ask
         (.faultNotice .linkFailed 0 1)
     s.held = false ∧ ¬(s.link .cam0).attempts + 1 < 4 ∧
     (4 ≤ (s.link .cam0).attempts + 1 → t = (s.setLink .cam0 { s.link .cam0 with
       state := .failed, attempts := 4, timerStart := s.timebase, refLocked := false
       failureCount := bump (s.link .cam0).failureCount }).ask
         (.faultNotice .linkFailed CamId.cam0.num (bump (s.link .cam0).failureCount))) ∧
     (s.link .cam0).state = .verify ∧ 1000 ≤ (s.timebase - (s.link .cam0).timerStart).toNat ∧
     ((s.link .cam0).wordClocks + (s.link .cam0).gateRate / 200 < (s.link .cam0).gateRate ∨
       (s.link .cam0).gateRate + (s.link .cam0).gateRate / 200 < (s.link .cam0).wordClocks)) := by decide +kernel

theorem witness_WordsCountedInVerifyAlone :
    ((inVerify 0).held = false ∧ ((inVerify 0).link .cam0).state = .verify) ∧
    (inDown.held = false ∧ (inDown.link .cam0).state = .down) ∧ (live.held = false ∧ (live.link .cam0).state = .acquire) ∧
    (inFailed.held = false ∧ (inFailed.link .cam0).state = .failed) := by decide +kernel

/-- In the first clause `u` is a state itself, and for LINK_RESET the state in which a message of requester 1 acts. -/
theorem witness_LeavingLockedAndLinkReset :
    (let u := onLink (fun l => { l with timerStart := 9998000 }) (receiving 5)
     (u.link .cam0).state = .locked ∧ u.held = false ∧ 2000 ≤ (u.timebase - (u.link .cam0).timerStart).toNat) ∧
    (locked.Hears 0x10 .k1 ∧ ((locked.heard .k1).link .cam0).state = .locked) ∧
    (live.Hears 0x10 .k1 ∧ (live.link .cam0).state = .acquire) ∧
    ((inVerify 0).Hears 0x10 .k1 ∧ ((inVerify 0).link .cam0).state = .verify) ∧
    (inFailed.Hears 0x10 .k1 ∧ (inFailed.link .cam0).state = .failed) ∧
    (inDown.Hears 0x10 .k1 ∧ (inDown.link .cam0).state = .down) := by
  unfold State.Hears; decide +kernel

theorem witness_LinkEnableWrite :
    (live.Hears 0x10 .k1 ∧ (live.camParams .cam0).linkEnable = true ∧ 1 ≤ (1#32).toInt) ∧
    ((linkOff inDown).Hears 0x10 .k1 ∧ ((linkOff inDown).camParams .cam0).linkEnable = false ∧ (0#32).toInt ≤ 0) ∧
    ((linkOff inDown).Hears 0x10 .k1 ∧ ((linkOff inDown).camParams .cam0).linkEnable = false ∧ 1 ≤ (1#32).toInt ∧
      ((linkOff inDown).link .cam0).state = .down) ∧
    (inFailed.Hears 0x10 .k1 ∧ (inFailed.camParams .cam0).linkEnable = true ∧ (0#32).toInt ≤ 0 ∧
      (inFailed.link .cam0).state ≠ .locked) ∧
    (locked.Hears 0x10 .k1 ∧ (locked.camParams .cam0).linkEnable = true ∧ (0#32).toInt ≤ 0 ∧
      (locked.link .cam0).state = .locked) := by
  unfold State.Hears; decide +kernel

theorem witness_TapUpdates :
    let pending := onLink (fun l => { l with updatePending := true }) locked
    ((ungated locked).Hears 0x10 .k1 ∧ ((ungated locked).link .cam0).state = .locked ∧
      ((ungated locked).camParams .cam0).tapGate = false) ∧
    (locked.Hears 0x10 .k1 ∧ (locked.link .cam0).state = .locked ∧ (locked.camParams .cam0).tapGate = true) ∧
    (live.Hears 0x10 .k1 ∧ (live.link .cam0).state ≠ .locked) ∧
    ((setUp (ungated locked)).Hears 0x10 .k1 ∧ (setUp (ungated locked)).setup = true ∧
      ((setUp (ungated locked)).link .cam0).state = .locked ∧
      ((setUp (ungated locked)).camParams .cam0).tapGate = false) ∧
    ((setUp locked).Hears 0x10 .k1 ∧ (setUp locked).setup = true ∧ ((setUp locked).link .cam0).state = .locked ∧
      ((setUp locked).camParams .cam0).tapGate = true) ∧
    ((setUp live).Hears 0x10 .k1 ∧ (setUp live).setup = true ∧ ((setUp live).link .cam0).state ≠ .locked) ∧
    (pending.Hears 0x10 .k1 ∧ (pending.camParams .cam0).tapGate = true ∧ (0#32).toInt ≤ 0 ∧
      (pending.link .cam0).state = .locked ∧ (pending.link .cam0).updatePending = true) ∧
    (pending.Hears 0x10 .k1 ∧ 1 ≤ (1#32).toInt) ∧ (locked.Hears 0x10 .k1 ∧ (locked.link .cam0).updatePending = false) := by
  unfold State.Hears; decide +kernel

/-! ### Witnesses: frames and lines -/

/-- Camera 0's six slots READY in order, the first `n` pinned, the newest slot 5. -/
def readyRing (pinned : Nat) : State :=
  onRing (fun r => { r with
    order := SlotId.all
    slots := (⟨.s0, .s1, .s2, .s3, .s4, .s5⟩ : PerSlot SlotId).map (fun k =>
      { Slot.initial with state := .ready, record := some (recDone k.num), pins := if k.num < pinned then 1 else 0 }) }) locked

theorem witness_FrameStartBegins :
    let usable (s : State) (k : SlotId) : Prop := ((s.ring .cam0).slots.get k).state = .ready ∧
      ((s.ring .cam0).slots.get k).pins = 0 ∧ (s.ring .cam0).newestReady? ≠ some k
    (ready.held = false ∧ (ready.link .cam0).state = .locked ∧ (ready.link .cam0).progress = .none ∧
      ((ready.ring .cam0).slots.get .s1).state = .free ∧
      ∀ j : SlotId, j.num < SlotId.s1.num → ((ready.ring .cam0).slots.get j).state ≠ .free) ∧
    ((readyRing 1).held = false ∧ ((readyRing 1).link .cam0).state = .locked ∧
      (∀ j : SlotId, (((readyRing 1).ring .cam0).slots.get j).state ≠ .free) ∧
      ((readyRing 1).ring .cam0).order = [.s0] ++ .s1 :: [.s2, .s3, .s4, .s5] ∧
      (∀ j ∈ [SlotId.s0], ¬usable (readyRing 1) j) ∧ usable (readyRing 1) .s1) ∧
    let s := onLink (fun l => { l with progress := .discarding }) (readyRing 5)
    (s.held = false ∧ (s.link .cam0).state = .locked ∧ (s.link .cam0).progress = .discarding ∧
      (∀ j : SlotId, ((s.ring .cam0).slots.get j).state ≠ .free) ∧ ∀ j ∈ (s.ring .cam0).order, ¬usable s j) := by
  refine ⟨⟨rfl, rfl, rfl, rfl, fun j => by cases j <;> decide +kernel⟩, ⟨rfl, rfl, fun j => by cases j <;> decide +kernel,
    rfl, ?_, ?_⟩, rfl, rfl, rfl, fun j => by cases j <;> decide +kernel, ?_⟩ <;> decide +kernel

/-- Receiving, with 25 lines concealed, or at position 479, and some malformed frames in a row. -/
def badFrame (p concealed consec : Nat) (pending : Bool) : State :=
  onLink (fun l => { l with concealed := concealed, consecMalformed := consec, updatePending := pending }) (receiving p)

theorem witness_MalformedFrameEnds :
    let ends (s : State) : Prop := s.held = false ∧ (s.link .cam0).state = .locked ∧
      (s.link .cam0).progress = .receiving .s0 ∧ (s.ring .cam0).filling? = some .s0
    let cutShort (s : State) : Prop := (s.camParams .cam0).concealLimit < ((s.atFrameEnd .cam0 .s0 5).link .cam0).concealed +
      (480 - ((s.atFrameEnd .cam0 .s0 5).link .cam0).nextPos) ∨ ((s.atFrameEnd .cam0 .s0 5).link .cam0).nextPos < 480
    (let s := badFrame 480 25 1 false
     ends s ∧ cutShort s ∧ (s.link .cam0).consecMalformed < 2 ∧ (s.link .cam0).updatePending = false) ∧
    (let s := badFrame 479 0 0 true
     ends s ∧ cutShort s ∧ (s.link .cam0).consecMalformed < 2 ∧ (s.link .cam0).updatePending = true) ∧
    ∀ pending : Bool, let s := badFrame 479 0 2 pending
      ends s ∧ cutShort s ∧ (s.link .cam0).consecMalformed = 2 ∧ (s.link .cam0).updatePending = pending ∧
        ∀ j : SlotId, j ≠ .s0 → (s.slot .cam0 j).state ≠ .filling := by
  refine ⟨⟨?_, ?_, ?_⟩, ⟨?_, ?_, ?_⟩, fun pending => by
    cases pending <;>
      exact ⟨by decide +kernel, by decide +kernel, by decide +kernel, rfl, fun j => by cases j <;> decide +kernel⟩⟩ <;>
    decide +kernel

/-- A whole frame of Q = 160 (Qx alone), 24 lines concealed. -/
def wholeFrame (clearRef run : Nat) : State :=
  (onRing (fun r => { r with slots := r.slots.set .s0 { r.slots.s0 with
    profiles := ⟨List.replicate 400 0 ++ List.replicate 400 160, List.replicate 480 0⟩ } })
    (onLink (fun l => { l with concealed := 24 }) (receiving 480))).setScreen .cam0 ⟨clearRef, run, 0, .none⟩

theorem witness_WellFormedFrameEnds :
    let ends (s : State) : Prop := s.held = false ∧ (s.link .cam0).state = .locked ∧
      (s.link .cam0).progress = .receiving .s0 ∧ (s.ring .cam0).filling? = some .s0 ∧
      ((s.atFrameEnd .cam0 .s0 5).link .cam0).concealed ≤ (s.camParams .cam0).concealLimit ∧
      480 ≤ ((s.atFrameEnd .cam0 .s0 5).link .cam0).nextPos
    let passes (s : State) : Prop := (s.screen .cam0).clearRef * (s.camParams .cam0).acceptRatio ≤
      ((s.atFrameEnd .cam0 .s0 5).slot .cam0 .s0).q * 256
    (ends (wholeFrame 0 0) ∧ ((wholeFrame 0 0).screen .cam0).clearRef = 0) ∧
    (ends (wholeFrame 256 0) ∧ ((wholeFrame 256 0).screen .cam0).clearRef ≠ 0 ∧ passes (wholeFrame 256 0)) ∧
    (ends (wholeFrame 257 14) ∧ ((wholeFrame 257 14).screen .cam0).clearRef ≠ 0 ∧ ¬passes (wholeFrame 257 14) ∧
      ((wholeFrame 257 14).screen .cam0).rejectedRun < ((wholeFrame 257 14).camParams .cam0).holdLimit) ∧
    (ends (wholeFrame 257 15) ∧ ((wholeFrame 257 15).screen .cam0).clearRef ≠ 0 ∧ ¬passes (wholeFrame 257 15) ∧
      ((wholeFrame 257 15).camParams .cam0).holdLimit ≤ ((wholeFrame 257 15).screen .cam0).rejectedRun) ∧
    (locked.held = false ∧ (locked.link .cam0).state = .locked ∧ (locked.link .cam0).progress = .none ∧
      (locked.link .cam0).openLine = none) := by
  decide +kernel

theorem witness_LineStartOpens :
    let opens (s : State) : Prop := s.held = false ∧ (s.link .cam0).state = .locked ∧
      (s.link .cam0).progress = .receiving .s0 ∧ (s.link .cam0).openLine = none
    (opens (receiving 480) ∧ 480 ≤ ((receiving 480).link .cam0).nextPos) ∧
    (opens (receiving 479) ∧ ((receiving 479).link .cam0).nextPos < 480 ∧
      (479#16).toNat = ((receiving 479).link .cam0).nextPos) ∧
    (opens (receiving 479) ∧ (478#16).toNat < ((receiving 479).link .cam0).nextPos) ∧
    (opens (receiving 479) ∧ 479 < (480#16).toNat) ∧
    (opens (receiving 478) ∧ ((receiving 478).link .cam0).nextPos < (479#16).toNat ∧ (479#16).toNat ≤ 479) ∧
    (locked.held = false ∧ (locked.link .cam0).state = .locked ∧ (locked.link .cam0).progress = .none) := by
  decide +kernel

/-- Camera 0 receives at position 9 with a line open. -/
def lineOpen (o : OpenLine) : State := onLink (fun l => { l with openLine := some o }) (receiving 9)

theorem witness_LinesSettle :
    let o799 : OpenLine := ⟨9, 799, 5, false, [], false⟩
    let o800 : OpenLine := ⟨9, 800, 5, false, List.replicate 800 0x2080, false⟩
    let skips : OpenLine := ⟨9, 799, 5, false, [], true⟩
    let opens (s : State) (o : OpenLine) : Prop := s.held = false ∧ (s.link .cam0).state = .locked ∧
      (s.link .cam0).openLine = some o ∧ (s.link .cam0).progress = .receiving .s0
    let isGood (s : State) (o : OpenLine) : Prop :=
      o.bad = false ∧ o.count = 800 ∧ o.crc = 5#16 ∧ o.number = (s.link .cam0).nextPos
    (opens (lineOpen o799) o799 ∧ o799.skipping = false ∧ o799.count < 800 ∧ ¬isGood (lineOpen o799) o799) ∧
    (opens (lineOpen o800) o800 ∧ o800.skipping = false ∧ 800 ≤ o800.count ∧ isGood (lineOpen o800) o800) ∧
    (opens (lineOpen skips) skips ∧ skips.skipping = true) ∧
    (locked.held = false ∧ (locked.link .cam0).state = .locked ∧ (locked.link .cam0).openLine = none ∧
      (locked.link .cam0).progress = .none) ∧
    RowStore.wf 800 (rowWritten.slot .cam0 .s0).pixels = true := by decide +kernel

/-! ### Witnesses: registration -/

/-- The engine runs camera 1's job while camera 0's slot 0 waits, SCORED, before camera 3's slot 0. -/
def jobsWaiting (queue : List Job) : State :=
  (onRing (fun r => { r with slots := r.slots.set .s0 { r.slots.s0 with state := .scored } }) ready).setEngine
    ⟨some job1, queue⟩

theorem witness_JobsStartAndWait :
    ((receiving 480).slot .cam0 .s0).record = some (rec0 1) ∧
    ((receiving 480).setEngine ⟨none, [⟨.cam0, .s0⟩, ⟨.cam3, .s0⟩]⟩).engine = ⟨none, ⟨.cam0, .s0⟩ :: [⟨.cam3, .s0⟩]⟩ ∧
    (receiving 480).engine = ⟨none, []⟩ ∧
    ((jobsWaiting [⟨.cam3, .s0⟩]).engine = ⟨some job1, [⟨.cam3, .s0⟩]⟩ ∧ ∀ q ∈ [Job.mk .cam3 .s0], q.cam ≠ .cam0) ∧
    ((jobsWaiting [⟨.cam2, .s1⟩, ⟨.cam0, .s0⟩, ⟨.cam3, .s0⟩]).engine =
        ⟨some job1, [⟨.cam2, .s1⟩] ++ ⟨.cam0, .s0⟩ :: [⟨.cam3, .s0⟩]⟩ ∧
      ((jobsWaiting []).slot .cam0 .s0).record = some (recDone 1) ∧
      ∀ q ∈ [Job.mk .cam2 .s1] ++ [Job.mk .cam3 .s0], q.cam ≠ .cam0) := by decide +kernel

/-- Camera 0's job runs against a blank reference, which a blank frame matches: both axes VALID. -/
def jobRuns (refLost created : Bool) (run : Nat) : State :=
  ((onRing (fun r => { r with slots := r.slots.set .s0 { r.slots.s0 with state := .scored } }) ready).setEngine
    ⟨some { job1 with
      job := ⟨.cam0, .s0⟩, phase := none, prediction := ⟨none, none⟩, refOff := ⟨0, 0⟩, drift := ⟨0, 0⟩, lastS := ⟨0, 0⟩
      reference := if created then none else some ⟨List.replicate 800 0, List.replicate 480 0⟩ }, []⟩).setContext .cam0
    { Context.initial with validRun := run, refLost := refLost }

/-- Below, at and above the refresh count of 60. -/
theorem witness_JobCompletes :
    let job (s : State) (r : Record) (results : AxisResult) : Prop := s.held = false ∧
      (s.slot .cam0 .s0).record = some r ∧ s.engine.running.any (fun j => j.job = ⟨.cam0, .s0⟩ &&
        decide ((j.measurement (s.slot .cam0 .s0) r).x.result = results) &&
        decide ((j.measurement (s.slot .cam0 .s0) r).y.result = results)) = true
    let refreshDue (s : State) (validRun : Nat) : Prop := (s.context .cam0).refreshPending = true ∨
      (s.camParams .cam0).refreshCount ≤ validRun
    (live.held = false ∧ live.engine.running = none) ∧
    (job (jobRuns true false 0) (recDone 1) .valid ∧ ((jobRuns true false 0).context .cam0).refLost = true) ∧
    (job (jobRuns false true 0) (recDone 1) .reference ∧ ((jobRuns false true 0).context .cam0).refLost = false) ∧
    (job (jobRuns false false 59) (recDone 1) .valid ∧ ((jobRuns false false 59).context .cam0).refLost = false ∧
      refreshDue (jobRuns false false 59) (59 + 1)) ∧
    (job (jobRuns false false 58) (recDone 1) .valid ∧ ((jobRuns false false 58).context .cam0).refLost = false ∧
      ¬refreshDue (jobRuns false false 58) (58 + 1)) := by decide +kernel

/-- Displacements at the bounds, on profiles of full length. -/
theorem witness_BestDisplacementsAndMeasures :
    (∀ d ∈ [(-48 : Int), 48], (List.replicate 800 0).length = 800 ∧ -48 ≤ d ∧ d ≤ 48) ∧
    (∀ d ∈ [(-32 : Int), 32], (List.replicate 480 0).length = 480 ∧ -32 ≤ d ∧ d ≤ 32) ∧
    (ready.slot .cam0 .s0).profiles.x.length = 800 ∧ (ready.slot .cam0 .s0).profiles.y.length = 480 := by
  decide +kernel

/-! ### Witnesses: phase tables -/

/-- A table whose last bin has the confidences `x` and `y` and the values 0. -/
def tableOf (x y : Nat) : PhaseTable :=
  ⟨List.replicate 31 .empty ++ [⟨⟨0, 0⟩, ⟨x, y⟩⟩], none, 0, 0, 0⟩

/-- Limit 64: at confidence 8 a difference of 65 is an outlier and one of 64 is none; at 7 no difference is. -/
theorem witness_TablesLearn :
    let valid : AxisMeas := ⟨.valid, some 0⟩
    let other : AxisMeas := ⟨.edge, some 0⟩
    let taught (meas : XY AxisMeas) (ax : Axis) : Prop := (meas.get ax).result = .valid
    let outlier (t : PhaseTable) (sh : XY Int) (ax : Axis) : Prop :=
      8 ≤ (t.bin 31).conf.get ax ∧ ((64 : Nat) : Int) < |sh.get ax - (t.bin 31).value.get ax|
    ((tableOf 8 8).bins.length = 32 ∧ 31 < 32 ∧ taught ⟨valid, valid⟩ .x ∧ taught ⟨valid, valid⟩ .y ∧
      outlier (tableOf 8 8) ⟨65, -65⟩ .x ∧ outlier (tableOf 8 8) ⟨65, -65⟩ .y) ∧
    ((tableOf 8 7).bins.length = 32 ∧ ¬outlier (tableOf 8 7) ⟨64, 65⟩ .x ∧ ¬outlier (tableOf 8 7) ⟨64, 65⟩ .y) ∧
    (outlier (tableOf 8 0) ⟨65, 65⟩ .x ∧ ¬outlier (tableOf 8 0) ⟨65, 65⟩ .y) ∧
    (¬outlier (tableOf 0 8) ⟨65, 65⟩ .x ∧ outlier (tableOf 0 8) ⟨65, 65⟩ .y) ∧
    (taught ⟨valid, other⟩ .x ∧ ¬taught ⟨valid, other⟩ .y) ∧ (¬taught ⟨other, valid⟩ .x ∧ taught ⟨other, valid⟩ .y) ∧
    (¬taught ⟨other, other⟩ .x ∧ ¬taught ⟨other, other⟩ .y) := by decide +kernel

/-- Camera 0 is bound to channel 0; bins 9 and 10 have the confidences `x` and `y` across, MIN_CONF being 4. -/
def bound (x y : Nat) : State :=
  (onCamParams (fun p => { p with phaseSource := .ec0, exposureDelay := -6000 }) live).setTable .cam0
    ⟨List.replicate 9 .empty ++ [⟨⟨40, 0⟩, ⟨x, 0⟩⟩, ⟨⟨72, 0⟩, ⟨y, 0⟩⟩] ++ List.replicate 21 .empty, none, 0, 0, 0⟩

theorem witness_PhasesAndPredictions :
    let sn : Snapshot := ⟨359, .down, some 2000, .running⟩
    let stopped : Snapshot := ⟨0, .up, none, .stopped⟩
    let linear : State := onChanParams .ec0 (fun p => { p with mode := .linear }) (bound 4 4)
    let trusted (s : State) (n : Nat) : Prop :=
      (s.camParams .cam0).minConf ≤ ((s.table .cam0).bins.getD n ⟨⟨0, 0⟩, ⟨0, 0⟩⟩).conf.get .x
    (((bound 4 4).camParams .cam0).phaseSource.chan? = some .ec0 ∧ sn.period = some 2000 ∧ sn.state = .running ∧
      ((bound 4 4).chanParams .ec0).mode = .modular ∧ 0 < ((bound 4 4).chanParams .ec0).cpr) ∧
    (live.camParams .cam0).phaseSource = .none ∧ (stopped.state ≠ .running ∨ stopped.period = none) ∧
    ((linear.camParams .cam0).phaseSource.chan? = some .ec0 ∧ (linear.chanParams .ec0).mode = .linear) ∧
    (trusted (bound 4 4) 9 ∧ trusted (bound 4 4) 10) ∧ (trusted (bound 4 3) 9 ∧ ¬trusted (bound 4 3) 10) ∧
    (¬trusted (bound 3 4) 9 ∧ trusted (bound 3 4) 10) ∧ (¬trusted (bound 3 3) 9 ∧ ¬trusted (bound 3 3) 10) := by
  decide +kernel

/-! ### Witnesses: commands, refusals and the soft reset -/

theorem witness_CommandRowsAreMessages : live.held = false ∧ live.mi.onBus = true ∧ live.mi.busState ≠ .busOff := by
  decide +kernel
theorem witness_CameraCommandsAct : live.Hears 0x10 .k1 := live_hears
theorem witness_EncoderCommandsAct : auger.Hears 0x10 .k1 := ⟨by decide +kernel, by decide +kernel, by decide +kernel⟩

theorem witness_SoftResetState :
    (copying.Hears 0x10 .k1 ∧ (copying.camParams .cam0).linkEnable = true ∧ (copying.ring .cam0).filling? = none) ∧
    ((linkOff inDown).Hears 0x10 .k1 ∧ ((linkOff inDown).camParams .cam0).linkEnable = false) ∧
    ((receiving 5).Hears 0x10 .k1 ∧ ((receiving 5).ring .cam0).filling? = some .s0 ∧
      ∀ i : SlotId, i ≠ .s0 → ((receiving 5).slot .cam0 i).state ≠ .filling) ∧
    (augerOut.Hears 0x10 .k1 ∧ (augerOut.channel .ec2).auger = .outside ∧ 0 < augerOut.params.augerPriority) ∧
    ¬((live.channel .ec2).auger = .outside ∧ 0 < live.params.augerPriority ∧ OutId.a = live.params.augerOutput) := by
  unfold State.Hears
  refine ⟨?_, ?_, ⟨?_, ?_, fun i => by cases i <;> decide +kernel⟩, ?_, ?_⟩ <;> decide +kernel

/-- In BUS_OFF: a known node and an unknown one. -/
theorem witness_SoftResetState_busOff :
    (busOff copying).held = false ∧ (busOff copying).mi.busState = .busOff ∧
      (busOff copying).matchNode 0x10 = some .k1 ∧ (busOff copying).matchNode 0x77 = none := by decide +kernel

theorem witness_RefusedMessages :
    (∀ node ∈ [0x77#8, 0#8], live.held = false ∧ live.mi.onBus = true ∧ live.matchNode node = none) ∧
    (live.matchNode 0x12 = some .k3 ∧ (0x12#8) ≠ 0 ∧ live.params.nodeCode.get .k3 = (0x12#8).toNat) ∧
    live.Hears 0x10 .k1 ∧ 2 ≤ (2#8).toNat ∧ 4 ≤ (4#8).toNat ∧ ((1#8) = 1 ∧ 4 ≤ (4#8).toNat) ∧
    ((2 ≤ (0#8).toNat ∨ 2 ≤ (2#8).toNat) ∧ (2#8) ≠ 1) ∧ ((2 ≤ (2#8).toNat ∨ 2 ≤ (0#8).toNat) ∧ (0#8) ≠ 1) ∧
    (∀ t ∈ [4#8, 7#8], 4 ≤ t.toNat ∧ t.toNat < 8) ∧ ∀ t ∈ [11#8, 14#8, 16#8], 11 ≤ t.toNat ∧ t.toNat ≠ 15 := by
  unfold State.Hears; decide +kernel

/-! ### Witnesses: encoder channels -/

/-- Channel 0 enabled, UP last, at position `p`, its inputs low. -/
def rotorAt (p : Int) : State := onChan .ec0 (fun ch => { ch with position := p }) rotor
/-- Channel 2, LINEAR and HOMED, at position `p`, with A high and B low. -/
def augerAt (p : Int) : State := onChan .ec2 (fun ch => { ch with position := p, levels := ⟨true, false, false⟩ }) auger

/-- A rising is a count UP at CPR − 1, B rising one DOWN at 0, against the last direction; on channel 2, B rising is UP
at the upper limit and A falling DOWN at the lower. -/
theorem witness_QuadratureEdges :
    let onA (s : State) (e : ChanId) (a : Bool) : Prop := a ≠ (s.channel e).levels.a
    let onB (s : State) (e : ChanId) (b : Bool) : Prop := b ≠ (s.channel e).levels.b
    let evaluated (s : State) (e : ChanId) (a : Bool) : Prop :=
      (s.chanParams e).edge = .x4 ∨ (onA s e a ∧ ((s.chanParams e).edge = .x2 ∨ a = true))
    let up (s : State) (e : ChanId) (a b : Bool) : Prop := (onA s e a ∧ a = true ∧ b = false) ∨
      (onB s e b ∧ b = true ∧ a = true) ∨ (onA s e a ∧ a = false ∧ b = true) ∨ (onB s e b ∧ b = false ∧ a = false)
    let counts (s : State) (e : ChanId) (a b : Bool) (d : Dir) : Prop := s.held = false ∧
      (s.channel e).state ≠ .disabled ∧ (onA s e a ∨ onB s e b) ∧ ¬(onA s e a ∧ onB s e b) ∧ evaluated s e a ∧
      (d = .up ↔ up s e a b)
    let x2 := onChanParams .ec0 (fun p => { p with edge := .x2 }) rotor
    let x1 := onChanParams .ec0 (fun p => { p with edge := .x1 })
      (onChan .ec0 (fun ch => { ch with levels := ⟨true, true, false⟩ }) rotor)
    (live.held = false ∧ (live.channel .ec0).state = .disabled) ∧ (¬onA rotor .ec0 false ∧ ¬onB rotor .ec0 false) ∧
    (¬(onA x2 .ec0 false ∧ onB x2 .ec0 true) ∧ ¬evaluated x2 .ec0 false) ∧
    (¬(onA x1 .ec0 false ∧ onB x1 .ec0 true) ∧ ¬evaluated x1 .ec0 false) ∧
    ((rotor.channel .ec0).state ≠ .disabled ∧ onA rotor .ec0 true ∧ onB rotor .ec0 true) ∧
    counts (rotorAt 359) .ec0 true false .up ∧ counts (rotorAt 0) .ec0 false true .down ∧
    counts (augerAt 8388607) .ec2 true true .up ∧ counts (augerAt (-8388608)) .ec2 false false .down := by
  refine ⟨⟨?_, ?_⟩, ⟨?_, ?_⟩, ⟨?_, ?_⟩, ⟨?_, ?_⟩, ⟨?_, ?_, ?_⟩, ⟨?_, ?_, ?_, ?_, ?_, ?_⟩, ⟨?_, ?_, ?_, ?_, ?_, ?_⟩,
    ⟨?_, ?_, ?_, ?_, ?_, ?_⟩, ?_, ?_, ?_, ?_, ?_, ?_⟩ <;> decide +kernel

theorem witness_QuadratureEdges_positions :
    ((rotorAt 359).channel .ec0).PositionOk ((rotorAt 359).chanParams .ec0) ∧
    ((rotorAt 0).channel .ec0).PositionOk ((rotorAt 0).chanParams .ec0) ∧
    ((augerAt 8388607).channel .ec2).PositionOk ((augerAt 8388607).chanParams .ec2) ∧
    ((augerAt (-8388608)).channel .ec2).PositionOk ((augerAt (-8388608)).chanParams .ec2) := by
  refine ⟨⟨?_, ?_⟩, ⟨?_, ?_⟩, ⟨?_, ?_⟩, ?_, ?_⟩ <;> decide +kernel

/-- An index just within MIN_PERIOD, and one exactly MIN_PERIOD after the last. -/
theorem witness_IndexEdges :
    let rises (s : State) : Prop := true = true ∧ (s.channel .ec0).levels.index = false
    let glitch (s : State) (t : Time) : Prop := (s.chanParams .ec0).mode = .modular ∧
      (s.channel .ec0).lastIndex = some t ∧ (s.timebase - t).toNat < (s.chanParams .ec0).minPeriod
    let within : State := { rotor with timebase := 1051999 }
    let past : State := { rotor with timebase := 1052000 }
    (live.held = false ∧ (live.channel .ec0).state = .disabled) ∧
    (within.held = false ∧ (within.channel .ec0).state ≠ .disabled ∧ rises within ∧
      (within.chanParams .ec0).indexMode ≠ .off ∧ glitch within 1050000) ∧
    (past.held = false ∧ (past.channel .ec0).state ≠ .disabled ∧ rises past ∧ (past.chanParams .ec0).indexMode ≠ .off ∧
      (past.channel .ec0).lastIndex = some 1050000 ∧ ¬glitch past 1050000) := by decide +kernel

/-- The rotor channel at a later time. -/
def rotorTime (t : Time) : State := { rotor with timebase := t }

theorem witness_StopWatch :
    let watches (s : State) : Prop := (s.chanParams .ec0).mode = .modular ∧
      ((s.channel .ec0).state = .homed ∨ (s.channel .ec0).state = .running)
    ((rotorTime 3050000).held = false ∧ watches (rotorTime 3050000) ∧
      ((rotorTime 3050000).channel .ec0).lastIndex = some 1050000 ∧
      ((rotorTime 3050000).chanParams .ec0).maxPeriod ≤ ((rotorTime 3050000).timebase - 1050000).toNat) ∧
    ((rotorTime 3049999).timebase - 1050000).toNat < ((rotorTime 3049999).chanParams .ec0).maxPeriod ∧
    (live.held = false ∧ ¬watches live) ∧
    rotor.Hears 0x10 .k1 ∧ (rotor.chanParams .ec0).mode = .modular ∧ (rotor.channel .ec0).state = .homed ∧
    (rotor.channel .ec0).lastIndex = some 1050000 ∧
    (clamp (199999#32).toInt 100000 4000000).toNat < (rotor.timebase - 1050000).toNat ∧
    (rotor.timebase - 1050000).toNat ≤ (clamp (200000#32).toInt 100000 4000000).toNat := by
  unfold State.Hears; decide +kernel

theorem witness_ChannelSetupWrites :
    (rotor.Hears 0x10 .k1 ∧ (rotor.chanParams .ec0).enable = true ∧ 1 ≤ (1#32).toInt ∧ (0#32).toInt ≤ 0) ∧
    (live.Hears 0x10 .k1 ∧ (live.chanParams .ec0).enable = false ∧ 1 ≤ (1#32).toInt ∧ (0#32).toInt ≤ 0) ∧
    ((setUp live).Hears 0x10 .k1 ∧ (setUp live).setup = true ∧ ((setUp live).chanParams .ec0).enable = false) := by
  unfold State.Hears; decide +kernel

theorem witness_ThresholdWrites : (setUp auger).Hears 0x10 .k1 ∧ (setUp auger).setup = true := by
  unfold State.Hears; decide +kernel

/-- Channel 2 changes to OUT, from OUT, and between states that concern no view; a change of nothing. -/
theorem witness_ChannelChangesAreReported :
    let out : Channel := { auger.channel .ec2 with auger := .outside }
    let stowed : Channel := { augerOut.channel .ec2 with auger := .inside }
    let unhomed : Channel := { live.channel .ec0 with state := .unhomed }
    ((auger.channel .ec2).state = (auger.channel .ec2).state) ∧
    (unhomed.state ≠ (live.channel .ec0).state ∧ ChanId.ec0 ≠ .ec2) ∧
    (out.auger = .outside ∧ (auger.channel .ec2).auger ≠ .outside ∧ 0 < auger.params.augerPriority) ∧
    (stowed.auger ≠ .outside ∧ (augerOut.channel .ec2).auger = .outside) ∧
    (augerOut.entry? .b .auger = none ∧ (augerOut.entry? .a .auger).isSome = true) := by decide +kernel

theorem auger_views : auger.HoldersOk ∧ auger.OrdersOk ∧ auger.CopiesOk :=
  ⟨fun o => by cases o <;> exact holderOk_vacant _ rfl rfl, ordersOk_of _ (by decide +kernel),
    ⟨fun _ => rfl, by decide +kernel, fun o => by cases o <;> decide +kernel⟩⟩
theorem witness_ChannelChangesAreReported_views :
    (auger.HoldersOk ∧ auger.OrdersOk ∧ auger.CopiesOk) ∧ augerOut.HoldersOk ∧ augerOut.OrdersOk ∧ augerOut.CopiesOk :=
  ⟨auger_views, augerOut_holders, augerOut_orders, augerOut_copies⟩

/-! ### Witnesses: outputs and stills -/

/-- Output A, showing camera 0's slot 0, `us` µs into its raster frame. -/
def rasterAt (us : Nat) (s : State) : State :=
  onOutput .a (fun oc => { oc with rasterStart := 10000000 - BitVec.ofNat 32 us }) s
def granted (v : View) (s : State) : State := onOutput .a (fun oc => { oc with grant := some v }) s

theorem rasterAt_pins : (rasterAt 16666 shown).PinsOk ∧ (rasterAt 16667 shown).PinsOk ∧
    (granted (.split .cam0 .cam1) (rasterAt 16667 shown)).PinsOk ∧ (rasterAt 16667 frozenA).PinsOk ∧
    (rasterAt 16667 live).PinsOk := by
  refine ⟨?_, ?_, ?_, ?_, ?_⟩ <;>
    exact pinsOk_of _ (by decide +kernel) (fun o => by cases o <;> rfl) (fun _ _ _ h => by cases h)

theorem witness_OutputFrameStarts :
    let left (s : State) : Nat := (s.timebase - (s.output .a).rasterStart).toNat
    let spacing (s : State) : Nat := if (s.output .a).rasterRate = 50 then 20000 else
      if (s.output .a).rasterPhase = 2 then 16666 else 16667
    (((rasterAt 16666 shown).held = false ∧ left (rasterAt 16666 shown) < spacing (rasterAt 16666 shown)) ∧
      ((rasterAt 16667 shown).held = false ∧ spacing (rasterAt 16667 shown) ≤ left (rasterAt 16667 shown)) ∧
      (((rasterAt 16667 shown).output .a).frozen = false ∧ ((rasterAt 16667 shown).ring .cam0).newestReady? = some .s0 ∧
        ((rasterAt 16667 shown).slot .cam0 .s0).record = some (recDone 1) ∧ (recDone 1).shift = some ⟨0, 0⟩) ∧
      (((granted (.split .cam0 .cam1) shown).output .a).grant = some (.split .cam0 .cam1) ∧ CamId.cam0 ≠ .cam1) ∧
      ((rasterAt 16667 live).held = false ∧ ((rasterAt 16667 live).ring .cam0).newestReady? = none ∧
        ((rasterAt 16667 live).output .a).win1.slot = none) ∧
      ((rasterAt 16667 frozenA).held = false ∧ ((rasterAt 16667 frozenA).output .a).frozen = true)) ∧
    (rasterAt 16666 shown).PinsOk ∧ (rasterAt 16667 shown).PinsOk ∧
      (granted (.split .cam0 .cam1) (rasterAt 16667 shown)).PinsOk ∧ (rasterAt 16667 frozenA).PinsOk ∧
      (rasterAt 16667 live).PinsOk := ⟨by decide +kernel, rasterAt_pins⟩

/-- A held part; a border pixel and a view-area pixel at each edge and on both sides of a SPLIT's seam; a blanked output, one
in STILL, and a FULL and a SPLIT that are live. -/
theorem witness_RasterPixels :
    let inView (x y : Nat) : Prop := (48 ≤ x ∧ x ≤ 751) ∧ 32 ≤ y ∧ y ≤ 447
    let split := onOutput .a (fun oc => { oc with shown := .split .cam0 .cam1 }) shown
    let isLive (s : State) : Prop := s.held = false ∧ (s.output .a).blanked = false ∧ (s.output .a).mode = .liveView
    { live with held := true }.held = true ∧
    (∀ p ∈ [(47, 32), (752, 447), (48, 31), (751, 448), (399, 0), (400, 479)], ¬inView p.1 p.2) ∧
    (∀ p ∈ [(48, 32), (399, 32), (400, 447), (751, 447)], inView p.1 p.2) ∧
    ((after (.softReset 0x10 0 false) shown).held = false ∧
      ((after (.softReset 0x10 0 false) shown).output .a).blanked = true) ∧
    (frozenA.held = false ∧ (frozenA.output .a).blanked = false ∧ (frozenA.output .a).mode = .still) ∧
    (isLive shown ∧ (shown.output .a).shown = .full .cam0) ∧
    (isLive split ∧ (split.output .a).shown = .split .cam0 .cam1) := by decide +kernel

/-- A copy of output A waits while nothing runs. -/
def copyWaits (s : State) : State := s.setStillUnit { s.stillUnit with waiting := [copyRecord] }

theorem witness_CopiesStartInOrder :
    let source (s : State) : WinSource := ⟨(s.output .a).win1.cam,
      if (s.output .a).frozen then none else (s.output .a).win1.slot, (s.output .a).win1.ox, (s.output .a).win1.oy⟩
    let none' (s : State) : Prop := ∀ w ∈ (Sources.full (source s)).windows, w.slot = none
    copying.stillUnit.running.isSome = true ∧ live.stillUnit.waiting = [] ∧
    ((copyWaits shown).stillUnit.running = none ∧ (copyWaits shown).stillUnit.waiting = copyRecord :: [] ∧
      ((copyWaits shown).output .a).shown = .full .cam0 ∧ ¬none' (copyWaits shown)) ∧
    ((copyWaits live).stillUnit.running = none ∧ (copyWaits live).stillUnit.waiting = copyRecord :: [] ∧
      ((copyWaits live).output .a).shown = .full .cam0 ∧ none' (copyWaits live)) := by decide +kernel

/-- The copy of output B, of two windows, runs while output A's waits. -/
def copyingTwo : State :=
  copying.setStillUnit { copying.stillUnit with
    running := some (⟨.b, .k1, 0x10⟩, .split ⟨.cam0, some .s0, 48, 32⟩ ⟨.cam1, none, 0, 0⟩), waiting := [copyRecord] }

theorem views_fine :
    (live.CopiesOk ∧ live.PinsOk) ∧ (contested.CopiesOk ∧ contested.PinsOk) ∧ (shown.CopiesOk ∧ shown.PinsOk) ∧
      (copying.CopiesOk ∧ copying.PinsOk) ∧ frozenA.CopiesOk ∧ frozenA.PinsOk := by
  refine ⟨⟨?_, ?_⟩, ⟨contested_copies, ?_⟩, ⟨?_, shown_pins⟩, ⟨copying_copies, copying_pins⟩, ?_, ?_⟩ <;>
    first
      | exact pinsOk_of _ (by decide +kernel) (fun o => by cases o <;> rfl) (fun _ _ _ h => by cases h)
      | exact ⟨fun _ => rfl, by decide +kernel, fun o => by cases o <;> decide +kernel⟩

theorem copyingTwo_fine : copyingTwo.CopiesOk ∧ copyingTwo.PinsOk := by
  refine ⟨⟨fun h => by revert h; decide +kernel, by decide +kernel, fun o => by cases o <;> decide +kernel⟩, ⟨fun c k => ?_,
    fun o _ h => ?_, fun o h => ?_, fun r w v h _ h2 => ?_⟩⟩
  · cases c <;> cases k <;> decide +kernel
  · rw [show (copyingTwo.output o).win2.slot = none by cases o <;> rfl] at h; simp at h
  · rw [show (copyingTwo.output o).win2.slot = none by cases o <;> rfl] at h; simp at h
  · cases h; simp at h2

theorem witness_FreezeMessages :
    let reach (s : State) (k : ReqSlot) : Prop := s.holderPriority .a ≤ s.params.maxPriority.get k
    (contested.Hears 0x12 .k3 ∧ contested.holderEntry? .a = some entry1 ∧ ¬entry1.priority ≤ contested.params.maxPriority.get .k3) ∧
    (contested.Hears 0x11 .k2 ∧ entry1.priority ≤ contested.params.maxPriority.get .k2) ∧
    OutId.ofNat? (0#8).toNat = some .a ∧ (live.holderEntry? .a = none ∧ reach live .k1) ∧
    (copying.Hears 0x10 .k1 ∧ copying.holderEntry? .a = none ∧ copying.stillUnit.busy .a = true ∧
      copying.stillUnit.running = some (copyRecord, .full ⟨.cam0, some .s0, 48, 32⟩) ∧ copyRecord.output = .a) ∧
    (live.Hears 0x10 .k1 ∧ live.stillUnit.busy .a = false ∧ (live.output .a).win1.slot = none ∧
      (live.output .a).shown.layout = .full ∧ (live.output .a).frozen = false) ∧
    (shown.Hears 0x10 .k1 ∧ shown.stillUnit.busy .a = false ∧ (shown.output .a).frozen = false ∧
      (shown.output .a).win1.slot.isSome = true) ∧
    (copyingTwo.Hears 0x10 .k1 ∧ copyingTwo.stillUnit.pendingOf .a = some copyRecord) ∧
    (frozenA.Hears 0x10 .k1 ∧ frozenA.stillUnit.busy .a = false ∧ (frozenA.output .a).frozen = true) := by
  unfold State.Hears; decide +kernel

theorem witness_FreezeMessages_fine :
    ((live.CopiesOk ∧ live.PinsOk) ∧ (contested.CopiesOk ∧ contested.PinsOk) ∧ (shown.CopiesOk ∧ shown.PinsOk) ∧
      (copying.CopiesOk ∧ copying.PinsOk) ∧ frozenA.CopiesOk ∧ frozenA.PinsOk) ∧
    copyingTwo.CopiesOk ∧ copyingTwo.PinsOk := ⟨views_fine, copyingTwo_fine⟩

/-- With `views_fine` and `copyingTwo_fine`. -/
theorem witness_CopiesEnd :
    (live.held = false ∧ live.stillUnit.running = none) ∧
    (copying.held = false ∧ copying.stillUnit.running = some (copyRecord, .full ⟨.cam0, some .s0, 48, 32⟩)) ∧
    (copyingTwo.held = false ∧ copyingTwo.stillUnit.running =
      some (⟨.b, .k1, 0x10⟩, .split ⟨.cam0, some .s0, 48, 32⟩ ⟨.cam1, none, 0, 0⟩)) ∧ (703 < 704 ∧ 415 < 416) ∧
    live.stillUnit.busy .a = false ∧ copyingTwo.stillUnit.pendingOf .a = some copyRecord ∧ copyRecord.output = .a := by
  decide +kernel

/-! ### Witnesses: view arbitration -/

theorem contested_fine : contested.HoldersOk ∧ contested.OrdersOk ∧ contested.CopiesOk :=
  ⟨contested_holders, contested_orders, contested_copies⟩

/-- The clauses of an entry's effect, by requesters 1, 2 and 3 of `contested`: the holder's own update, a higher and an
equal priority within the dwell, a lower one; no holder on output B; a FULL and a SPLIT view. -/
theorem witness_ViewRequests :
    (contested.HoldersOk ∧ contested.OrdersOk ∧ contested.CopiesOk) ∧
    (contested.Hears 0x10 .k1 ∧ contested.Hears 0x11 .k2 ∧ contested.Hears 0x12 .k3) ∧
    (OutId.ofNat? (0#8).toNat = some .a ∧ OutId.ofNat? (1#8).toNat = some .b) ∧
    ((2#8) ≠ 1 ∧ CamId.ofNat? (3#8).toNat = some .cam3 ∧ View.full .cam3 = .full .cam3) ∧
    ((1#8) = 1 ∧ CamId.ofNat? (0#8).toNat = some .cam0 ∧ CamId.ofNat? (0#8).toNat = some .cam0) ∧
    (contested.outGrant .b).holder = none ∧ (contested.outGrant .a).holder = some (.master .k1) ∧
    contested.entry? .a (.master .k1) = some entry1 ∧
    (min (max (6#8).toNat 1) (contested.params.maxPriority.get .k2) = entry1.priority ∧
      (contested.outGrant .a).dwellRunning = true) ∧
    min (max (0#8).toNat 1) (contested.params.maxPriority.get .k3) < entry1.priority ∧
    entry2.priority ≤ min (max (7#8).toNat 1) (contested.params.maxPriority.get .k1) :=
  ⟨contested_fine, contested_hears, by decide +kernel⟩

theorem witness_EntriesEnd :
    (contested.HoldersOk ∧ contested.OrdersOk ∧ contested.CopiesOk) ∧
    (contested.Hears 0x10 .k1 ∧ contested.Hears 0x11 .k2 ∧ contested.Hears 0x12 .k3) ∧
    OutId.ofNat? (0#8).toNat = some .a ∧ contested.entry? .a (.master .k3) = none ∧
    (contested.entry? .a (.master .k1)).isSome = true ∧ contested.held = false ∧
    (contested.entry? .a (.master .k1) = some entry1 ∧ entry1.hold = 0) ∧
    (contested.entry? .a (.master .k2) = some entry2 ∧ 0 < entry2.hold ∧
      entry2.hold * 1000 ≤ ({ contested with timebase := 9200000 }.timebase - entry2.receipt).toNat ∧
      ({ contested with timebase := 9199999 }.timebase - entry2.receipt).toNat < entry2.hold * 1000) :=
  ⟨contested_fine, contested_hears, by decide +kernel⟩

/-- Requester 1, with a persistent entry, was heard exactly KEEPALIVE = 1,000 ms before. -/
theorem witness_KeepaliveExpiries :
    (contested.HoldersOk ∧ contested.OrdersOk ∧ contested.CopiesOk) ∧
    (contested.Hears 0x10 .k1 ∧ contested.Hears 0x11 .k2 ∧ contested.Hears 0x12 .k3) ∧ contested.held = false ∧
    (contested.entry? .a (.master .k1) = some entry1 ∧ entry1.hold = 0 ∧
      contested.arbiter.lastHeard.get .k1 = some 9000000 ∧
      contested.params.keepalive * 1000 ≤ (contested.timebase - 9000000).toNat) ∧
    (contested.entry? .a (.master .k2) = some entry2 ∧ entry2.hold ≠ 0 ∧ contested.arbiter.lastHeard.get .k2 = none) ∧
    ((contested.heard .k2).arbiter.lastHeard.get .k1 = some 9000000 ∧
      (clamp (999#32).toInt 300 5000).toNat * 1000 + 1 ≤ (contested.timebase - 9000000).toNat ∧
      ¬(clamp (1000#32).toInt 300 5000).toNat * 1000 + 1 ≤ (contested.timebase - 9000000).toNat) :=
  ⟨contested_fine, contested_hears, by decide +kernel⟩

/-- Requesters 1 and 2, both with persistent entries on output A and both silent for longer than a KEEPALIVE of 300 ms. -/
theorem witness_KeepaliveExpiries_both :
    let s := contested.setArbiter { contested.arbiter with
      lastHeard := (contested.arbiter.lastHeard.set .k2 (some 9600000))
      table := ⟨{ Requests.vacant with masters := ⟨some entry1, some { entry2 with hold := 0 }, none, none, none, none⟩ },
        Requests.vacant⟩ }
    (s.HoldersOk ∧ s.OrdersOk ∧ s.CopiesOk) ∧ s.Hears 0x12 .k3 ∧
    (s.entry? .a (.master .k1) = some entry1 ∧ entry1.hold = 0 ∧ (s.heard .k3).arbiter.lastHeard.get .k1 = some 9000000 ∧
      (clamp (300#32).toInt 300 5000).toNat * 1000 + 1 ≤ (s.timebase - 9000000).toNat) ∧
    (s.entry? .a (.master .k2) = some { entry2 with hold := 0 } ∧
      (s.heard .k3).arbiter.lastHeard.get .k2 = some 9600000 ∧
      (clamp (300#32).toInt 300 5000).toNat * 1000 + 1 ≤ (s.timebase - 9600000).toNat) := by
  refine ⟨⟨fun o => ?_, ordersOk_of _ (by decide +kernel), ⟨fun _ => rfl, by decide +kernel, fun o => by cases o <;> decide +kernel⟩⟩,
    ⟨by decide +kernel, by decide +kernel, by decide +kernel⟩, by decide +kernel⟩
  cases o
  · exact holderOk_of _ _ (.master .k1) entry1 rfl rfl (by decide +kernel) (by decide +kernel)
  · exact holderOk_vacant _ rfl rfl

/-- Output A's grant is 1,000 ms old. -/
theorem witness_DwellEnds :
    let passed (s : State) (ms : Nat) : Prop := ms * 1000 ≤ (s.timebase - (s.outGrant .a).grantTime).toNat
    (contested.HoldersOk ∧ contested.OrdersOk ∧ contested.CopiesOk) ∧
    (contested.Hears 0x10 .k1 ∧ contested.Hears 0x11 .k2 ∧ contested.Hears 0x12 .k3) ∧
    (contested.held = false ∧ (contested.outGrant .a).dwellRunning = true ∧ passed contested contested.params.dwell) ∧
    (contested.outGrant .b).dwellRunning = false ∧ (contested.outGrant .b).holder = none ∧ passed { contested with timebase := 9800000 } contested.params.dwell ∧
    ¬passed { contested with timebase := 9799999 } contested.params.dwell ∧
    (contested.outGrant .a).candidate = some (.master .k2) ∧
    passed contested (clamp (1000#32).toInt 0 5000).toNat ∧ ¬passed contested (clamp (1001#32).toInt 0 5000).toNat ∧
    (contested.outGrant .a).holder.isSome = true :=
  ⟨contested_fine, contested_hears, by decide +kernel⟩

theorem setUp_contested_fine : (setUp contested).HoldersOk ∧ (setUp contested).OrdersOk ∧ (setUp contested).CopiesOk :=
  contested_fine

theorem witness_RequesterSlotWrites :
    ((setUp contested).HoldersOk ∧ (setUp contested).OrdersOk ∧ (setUp contested).CopiesOk) ∧
    (setUp contested).Hears 0x10 .k1 ∧
    ((setUp contested).setup = true ∧ (clamp (0x11#32).toInt 0 254).toNat = (setUp contested).params.nodeCode.get .k2 ∧
      (clamp (300#32).toInt 0 254).toNat ≠ (setUp contested).params.nodeCode.get .k2 ∧
      ((setUp contested).entry? .a (.master .k2)).isSome = true ∧ (setUp contested).entry? .b (.master .k2) = none ∧
      (setUp contested).params.maxPriority.get .k1 ≤ (clamp (7#32).toInt 1 7).toNat ∧
      (clamp (5#32).toInt 1 7).toNat < (setUp contested).params.maxPriority.get .k1 ∧
      (clamp (4#32).toInt 1 7).toNat < (setUp contested).params.maxPriority.get .k1 ∧
      (setUp contested).entry? .a (.master .k1) = some entry1 ∧ entry1.priority ≤ (clamp (5#32).toInt 1 7).toNat ∧
      (clamp (4#32).toInt 1 7).toNat < entry1.priority ∧ ((setUp contested).outGrant .a).holder = some (.master .k1) ∧
      ((setUp contested).entry? .a (.master .k2) = some entry2 ∧ (clamp (4#32).toInt 1 7).toNat < entry2.priority)) :=
  ⟨setUp_contested_fine, ⟨by decide +kernel, by decide +kernel, by decide +kernel⟩, by decide +kernel⟩

theorem witness_AugerWrites :
    (augerOut.AugerOk ∧ augerOut.HoldersOk ∧ augerOut.OrdersOk ∧ augerOut.CopiesOk) ∧ augerOut.Hears 0x10 .k1 ∧
    ((augerOut.channel .ec2).auger = .outside ∧ 0 < augerOut.params.augerPriority ∧
      (clamp (4#32).toInt 0 7).toNat = augerOut.params.augerPriority ∧ (clamp (0#32).toInt 0 7).toNat = 0 ∧
      ((clamp (8#32).toInt 0 7).toNat ≠ 0 ∧ (clamp (8#32).toInt 0 7).toNat ≠ augerOut.params.augerPriority) ∧
      camOfCode (clamp (1#32).toInt 0 3) = augerOut.params.augerCamera ∧
      camOfCode (clamp (4#32).toInt 0 3) ≠ augerOut.params.augerCamera ∧
      outOfCode (clamp (0#32).toInt 0 1) = augerOut.params.augerOutput ∧
      outOfCode (clamp (2#32).toInt 0 1) ≠ augerOut.params.augerOutput ∧ (auger.channel .ec2).auger ≠ .outside) :=
  ⟨⟨augerOut_auger, augerOut_holders, augerOut_orders, augerOut_copies⟩,
    ⟨by decide +kernel, by decide +kernel, by decide +kernel⟩, by decide +kernel⟩

/-! ### Witnesses: parameters and messages -/

theorem witness_ParameterWrites :
    live.Hears 0x10 .k1 ∧ (paramOf (0x0180#16).toNat = none ∧ (live.heard .k1).readOnlyItem (0x0180#16).toNat = none) ∧
    (paramOf (0x0900#16).toNat = none ∧ (live.heard .k1).readOnlyItem (0x0900#16).toNat = some 1) ∧
    (paramOf (0x0101#16).toNat = some (.cam .cam0 .linkRate) ∧ (ParamId.cam .cam0 .linkRate).guarded = true ∧
      live.setup = false) ∧
    ((setUp rotor).Hears 0x10 .k1 ∧ (setUp rotor).setup = true ∧ ((setUp rotor).chanParams .ec0).enable = true ∧
      paramOf (0x0201#16).toNat = some (.chan .ec0 .mode)) ∧
    ((setUp live).setup = true ∧ (setUp live).refusesBusy (.cam .cam0 .linkRate) = false ∧
      .linkRate ∉ [CamParam.linkEnable, .tapOverride, .tapGate, .holdLimit, .phaseSource]) ∧
    (ChanParam.slipTol ∉ [ChanParam.enable, .mode, .cpr, .maxPeriod, .outThreshold, .inThreshold] ∧
      paramOf (0x0209#16).toNat = some (.chan .ec0 .slipTol)) ∧
    (paramOf (0x0300#16).toNat = some (.out .a .defaultLayout) ∧ OutParam.defaultLayout ≠ .rasterRate ∧
      paramOf (0x0303#16).toNat = some (.out .a .rasterRate)) := by
  unfold State.Hears; decide +kernel

theorem witness_StoredValuesAndParameterRows : live.params.InRange ∧ live.Hears 0x10 .k1 ∧
    (live.held = false ∧ live.mi.onBus = true) :=
  ⟨defaults_inRange, live_hears, rfl, by decide +kernel⟩

/-- Numbers no parameter has, each just beyond one of the areas of R209: the areas by their first numbers and lengths. -/
theorem witness_ParameterReads : live.Hears 0x10 .k1 ∧
    let areas : List (Nat × Nat) := [(0, 4), (0x800, 18), (0xD00, 27)] ++ [0, 1, 2, 3].map (fun c => (0x900 + 0x40 * c, 60)) ++
      [0, 1, 2, 3].map (fun c => (0xB00 + 0x80 * c, 128)) ++ [0, 1, 2].map (fun e => (0xA00 + 0x20 * e, 17)) ++
      [0, 1, 2, 3, 4, 5].map (fun j => (0xD40 + 3 * j, 3)) ++ (List.range 14).map (fun r => (0xE00 + 0x10 * r, 7)) ++
      [0, 1].map (fun o => (0xF00 + 0x40 * o, 41))
    ∀ n ∈ [4, 0x115, 0x812, 0x93C, 0x9FC, 0xA11, 0xA51, 0xD1B, 0xD52, 0xE07, 0xED7, 0xF29, 0xF69, 0xFFFF],
      n < 65536 ∧ (∀ id : ParamId, id.number ≠ n) ∧ ∀ a ∈ areas, n < a.1 ∨ a.1 + a.2 ≤ n := by
  refine ⟨live_hears, fun n hn => ⟨?_, fun id => ?_, ?_⟩⟩
  · revert n; decide
  · revert n
    cases id with
    | cam c p => cases c <;> cases p <;> decide
    | chan e p => cases e <;> cases p <;> decide
    | out o p => cases o <;> cases p <;> decide
    | nodeCode k => cases k <;> decide
    | maxPriority k => cases k <;> decide
    | _ => decide
  · revert n; decide +kernel

theorem witness_ParameterTable : paramOf 0x0101 = some (.cam .cam0 .linkRate) ∧
    (ParamId.cam .cam0 .linkRate).number = 0x0101 := by decide +kernel

/-- A FULL and a SPLIT view; a camera with no READY frame, and one whose newest is followed by a SCORED slot. -/
theorem witness_OutboundBytes :
    let s := onRing (fun r => { r with
      order := [.s0, .s1], slots := r.slots.set .s1 { r.slots.s1 with state := .scored, record := some (rec0 2) } }) ready
    (live.output .a).shown = .full .cam0 ∧
    ((onOutput .a (fun oc => { oc with shown := .split .cam0 .cam2 }) live).output .a).shown = .split .cam0 .cam2 ∧
    (∀ k ∈ ((receiving 5).ring .cam0).order, ((receiving 5).slot .cam0 k).state ≠ .ready) ∧
    ((s.ring .cam0).order = [] ++ .s0 :: [.s1] ∧ (s.slot .cam0 .s0).state = .ready ∧
      (∀ j ∈ [SlotId.s1], (s.slot .cam0 j).state ≠ .ready) ∧ (s.slot .cam0 .s0).record = some (recDone 1)) := by
  decide +kernel

/-- The queue with room for one more, with none, and with a drop notice in it. -/
theorem witness_OutboundQueue :
    let seven : List Message := [.encoderReport .ec1, .viewStatus .a, .viewStatus .b, .cameraStatus .cam3, .encoderReport .ec0,
      .cameraStatus .cam0, .cameraStatus .cam1]
    let notice : Message := .faultNotice .outboundDrop 0 2
    (fullQueue.mi.queue = [.cameraStatus .cam2, .encoderReport .ec1] ++ .viewStatus .a :: [.viewStatus .b, .cameraStatus .cam3,
        .encoderReport .ec0, .cameraStatus .cam0, .cameraStatus .cam1] ∧
      ∀ x ∈ [Message.cameraStatus .cam2, .encoderReport .ec1] ++ [.viewStatus .b, .cameraStatus .cam3, .encoderReport .ec0,
        .cameraStatus .cam0, .cameraStatus .cam1], x.key ≠ (Message.viewStatus .a).key) ∧
    ((∀ x ∈ seven, x.key ≠ (Message.cameraStatus .cam2).key) ∧ seven.length < 8) ∧
    ((∀ x ∈ fullQueue.mi.queue, x.key ≠ (Message.encoderReport .ec2).key) ∧ 8 ≤ fullQueue.mi.queue.length ∧
      ∀ x ∈ fullQueue.mi.queue, x.key ≠ notice.key) ∧
    ((∀ x ∈ seven ++ [Message.faultNotice .outboundDrop 0 1], x.key ≠ (Message.encoderReport .ec2).key) ∧
      8 ≤ (seven ++ [Message.faultNotice .outboundDrop 0 1]).length ∧
      (Message.faultNotice .outboundDrop 0 1).key = notice.key ∧ ∀ x ∈ seven ++ [], x.key ≠ notice.key) ∧
    (let mi := (onMi (fun mi => { mi with busState := .errorActive }) fullQueue).mi
     mi.busState = .errorActive ∧ mi.txBuffer = none ∧ mi.queue = .cameraStatus .cam2 :: seven) ∧
    State.reset.mi.busState = .joining ∧ fullQueue.mi.busState = .busOff ∧ live.mi.txBuffer.isSome = true := by
  decide +kernel

/-- Just before each expiry, and at it. -/
theorem witness_ReportTimers :
    let at' (v c e : Time) (s : State) : State := onMi (fun mi => { mi with viewTimer := v, camTimer := c, encTimer := e }) s
    let since (s : State) (t : Time) : Nat := (s.timebase - t).toNat
    let early := at' 9500001 9750001 9750001 live
    let late := at' 9500000 9750000 9750000 live
    early.held = false ∧ since early early.mi.viewTimer < 500000 ∧ since early early.mi.camTimer < 250000 ∧
    since early early.mi.encTimer < 250000 ∧
    late.held = false ∧ 500000 ≤ since late late.mi.viewTimer ∧ 250000 ≤ since late late.mi.camTimer ∧
    CamId.cam1.num = (late.mi.camTurn.num + 1) % 4 ∧ CamId.cam0.num = (CamId.cam3.num + 1) % 4 ∧
    250000 ≤ since late late.mi.encTimer ∧ ((late.chanParams .ec0).enable = false ∧ (late.chanParams .ec1).enable = false ∧
      (late.chanParams .ec2).enable = false) := by decide +kernel

/-- Channel 0 alone is enabled, and the turn stands at channel 1: the third place asked. -/
theorem witness_ReportTimers_turn :
    let s := onMi (fun mi => { mi with encTimer := 0, chanTurn := .ec1 }) rotor
    s.held = false ∧ 250000 ≤ (s.timebase - s.mi.encTimer).toNat ∧ 2 < 3 ∧ ChanId.ec0.num = (s.mi.chanTurn.num + 2) % 3 ∧
    (s.chanParams .ec0).enable = true ∧ (s.chanParams .ec1).enable ≠ true ∧ (s.chanParams .ec2).enable ≠ true ∧
    ChanId.ec1.num = (ChanId.ec0.num + 1) % 3 := by decide +kernel

theorem witness_BusEvents :
    let off := onMi (fun mi => { mi with busState := .busOff, txBuffer := none, recoveryRuns := 120 }) live
    (live.held = false ∧ live.mi.busState = .errorActive ∧ live.mi.txBuffer = some ⟨0x209, [], false⟩ ∧
      live.mi.txErrors ≤ 255) ∧
    (let s := onMi (fun mi => { mi with busState := .errorPassive, txErrors := 255 }) live
     s.held = false ∧ s.mi.busState = .errorPassive ∧ s.mi.txErrors ≤ 255) ∧
    (State.reset.held = false ∧ State.reset.mi.busState = .joining) ∧
    (off.held = false ∧ off.mi.busState = .busOff ∧ off.mi.txBuffer = none ∧ off.mi.recoveryRuns + 7 < 128 ∧
      128 ≤ off.mi.recoveryRuns + 8) := by decide +kernel

/-- Identifiers just outside and at the ends of base + 0 … base + 6, and lengths one short of each kind's and exact. -/
theorem witness_InboundFrames :
    let base := 0x200 + 32 * live.mi.idStrap.toNat
    let is (f : CanFrame) (offset length : Nat) : Prop := f.extended = false ∧ f.remote = false ∧
      f.ident = base + offset ∧ length ≤ f.data.length
    live.Hears 0x10 .k1 ∧ live.held = false ∧ live.mi.onBus = true ∧ State.reset.mi.onBus = false ∧
    (CanFrame.mk false false 0x1FF [0]).ident < base ∧ base + 6 < (CanFrame.mk false false 0x207 [0]).ident ∧
    (∀ p ∈ [(0, 8), (1, 2), (2, 3), (3, 8), (4, 3), (5, 4), (6, 1)],
      (CanFrame.mk false false (0x200 + p.1) (List.replicate (p.2 - 1) 0)).ident = base + p.1 ∧
      (CanFrame.mk false false (0x200 + p.1) (List.replicate (p.2 - 1) 0)).data.length < p.2 ∧
      is (CanFrame.mk false false (0x200 + p.1) (List.replicate p.2 0)) p.1 p.2) := by
  unfold State.Hears; decide +kernel

end Sys2Proof.Tests
end

section
/-! The step at each form of the command queue, and the tick of an idle step. -/

namespace Sys2Proof.Machine

@[simp] theorem tick_of_running {s : State} (running : s.held = false) :
    tick s = { s with timebase := s.timebase + 1 } := by
  simp [tick, running]

@[simp] theorem tick_of_held {s : State} (held : s.held = true) : tick s = s := by
  simp [tick, held]

theorem step_of_pending_nil {s : State} (idle : s.pending = []) : step s = .next (tick s) := by
  simp only [step, idle]

theorem step_of_pending_cons {s : State} {c : Instr} {rest : List Instr} (front : s.pending = c :: rest) :
    step s = exec c { s with pending := rest } := by
  simp only [step, front]

end Sys2Proof.Machine

open Sys2Proof Sys2Proof.Machine

/-- Settles O1, from the step at each form of the queue: a waiting command is run on the rest, and an empty queue leaves the
tick, which only a running part has. -/
theorem stepTakesTheFront : Obligations.StepTakesTheFront := by
  unfold Obligations.StepTakesTheFront
  refine ⟨fun c s rest => step_of_pending_cons rfl, fun s idle => ⟨fun running => ?_, fun held => ?_⟩⟩
  · rw [step_of_pending_nil idle, tick_of_running running]
  · rw [step_of_pending_nil idle, tick_of_held held]

end

section
/-! Frame buffers and stills: which updates keep them canonical, and that every operation, block by block, is made of such
updates. Rows change at the settling of a line (R18) and at the ends of a copy (R178) alone. -/

namespace Sys2Proof.Machine

namespace State.RowsOk

variable {s : State}

/-! ### Updates -/

theorem rings (h : s.RowsOk) (c : CamId) : (s.ring c).RowsOk := h.1 c
theorem pixels (h : s.RowsOk) (c : CamId) (k : SlotId) :
    RowStore.wf Config.frameWidth (s.slot c k).pixels = true := h.1 c k
theorem stillPixels (h : s.RowsOk) (o : OutId) : RowStore.wf Config.viewWidth (s.still o).pixels = true := h.2 o

/-- Canonical rows are a matter of the rings and the stills alone. -/
theorem of_eq {t : State} (h : s.RowsOk) (hr : t.rings = s.rings) (hs : t.stillUnit.stills = s.stillUnit.stills) :
    t.RowsOk := by
  unfold State.RowsOk State.slot State.ring State.still at h ⊢
  rw [hr, hs]
  exact h

theorem setLink (h : s.RowsOk) (c : CamId) (v : Link) : (s.setLink c v).RowsOk := h.of_eq rfl rfl
theorem setScreen (h : s.RowsOk) (c : CamId) (v : Screen) : (s.setScreen c v).RowsOk := h.of_eq rfl rfl
theorem setContext (h : s.RowsOk) (c : CamId) (v : Context) : (s.setContext c v).RowsOk := h.of_eq rfl rfl
theorem setEngine (h : s.RowsOk) (v : Engine) : (s.setEngine v).RowsOk := h.of_eq rfl rfl
theorem setTable (h : s.RowsOk) (c : CamId) (v : PhaseTable) : (s.setTable c v).RowsOk := h.of_eq rfl rfl
theorem setChannel (h : s.RowsOk) (e : ChanId) (v : Channel) : (s.setChannel e v).RowsOk := h.of_eq rfl rfl
theorem setOutput (h : s.RowsOk) (o : OutId) (v : Compositor) : (s.setOutput o v).RowsOk := h.of_eq rfl rfl
theorem setArbiter (h : s.RowsOk) (v : Arbiter) : (s.setArbiter v).RowsOk := h.of_eq rfl rfl
theorem setMi (h : s.RowsOk) (v : Interface) : (s.setMi v).RowsOk := h.of_eq rfl rfl
theorem setParams (h : s.RowsOk) (v : Params) : (s.setParams v).RowsOk := h.of_eq rfl rfl
theorem ask (h : s.RowsOk) (m : Message) : (s.ask m).RowsOk := h.setMi _

theorem setRing (h : s.RowsOk) (c : CamId) {v : Ring} (hv : v.RowsOk) : (s.setRing c v).RowsOk := by
  refine ⟨fun d => ?_, h.2⟩
  unfold State.slot
  rw [State.setRing_ring]
  split
  · exact hv
  · exact h.rings d

theorem setSlot (h : s.RowsOk) (c : CamId) (k : SlotId) {v : Slot}
    (hv : RowStore.wf Config.frameWidth v.pixels = true) : (s.setSlot c k v).RowsOk :=
  h.setRing c (fun j => Ring.rowsOk_set (h.rings c) k hv j)

theorem setStillUnit (h : s.RowsOk) {v : StillUnit} (hv : v.stills = s.stillUnit.stills) : (s.setStillUnit v).RowsOk :=
  h.of_eq rfl hv

theorem setWaiting (h : s.RowsOk) (l : List CopyRecord) :
    (s.setStillUnit { s.stillUnit with waiting := l }).RowsOk := h.setStillUnit rfl
theorem setRunning (h : s.RowsOk) (r : Option (CopyRecord × Sources)) :
    (s.setStillUnit { s.stillUnit with running := r }).RowsOk := h.setStillUnit rfl

theorem setStill (h : s.RowsOk) (o : OutId) {v : Still} (hv : RowStore.wf Config.viewWidth v.pixels = true) :
    (s.setStill o v).RowsOk := by
  refine ⟨h.1, fun q => ?_⟩
  unfold State.setStill
  rw [State.setStillUnit_still, PerOut.get_set]
  split
  · exact hv
  · exact h.stillPixels q

theorem ite {t : State} (hs : s.RowsOk) (ht : t.RowsOk) (p : Prop) [Decidable p] :
    (if p then s else t).RowsOk := by
  split
  · exact hs
  · exact ht

/-! ### Tables and engine -/

theorem clearTable (h : s.RowsOk) (c : CamId) : (s.clearTable c).RowsOk := h.setTable _ _
theorem clearIfBound (h : s.RowsOk) (e : ChanId) (c : CamId) : (s.clearIfBound e c).RowsOk := (h.clearTable c).ite h _
theorem clearBound (h : s.RowsOk) (e : ChanId) : (s.clearBound e).RowsOk :=
  (((h.clearIfBound e .cam0).clearIfBound e .cam1).clearIfBound e .cam2).clearIfBound e .cam3
theorem phaseWrites (h : s.RowsOk) (j : Job) (i : Option PhaseInfo) (p : XY (Option Int)) :
    (s.phaseWrites j i p).RowsOk :=
  (h.setSlot j.cam j.slot (v := (s.slot j.cam j.slot).mapRecord (fun r => r.withPhase i p))
    (h.pixels j.cam j.slot)).setTable _ _
theorem startJob (h : s.RowsOk) (j : Job) : (s.startJob j).RowsOk :=
  ((h.phaseWrites _ _ _).setContext _ _).setEngine _
theorem startNext (h : s.RowsOk) : s.startNext.RowsOk := by
  unfold State.startNext
  split
  · exact (h.setEngine _).startJob _
  · exact h
theorem supersede (h : s.RowsOk) (j : Job) : (s.supersede j).RowsOk :=
  have unmeasured (u : State) (sh : XY Int) (g : u.RowsOk) :
      (u.setSlot j.cam j.slot ((u.slot j.cam j.slot).unmeasured sh)).RowsOk := g.setSlot _ _ (g.pixels j.cam j.slot)
  have counted (u : State) (g : u.RowsOk) : (u.setRing j.cam (u.ring j.cam).countSuperseded).RowsOk :=
    g.setRing _ (g.rings j.cam)
  counted _ (unmeasured _ _ (h.phaseWrites j _ _))
theorem withdraw (h : s.RowsOk) (c : CamId) : (s.withdraw c).RowsOk := by
  unfold State.withdraw
  split
  · exact h
  · exact (h.setEngine _).supersede _
theorem handOff (h : s.RowsOk) (j : Job) : (s.handOff j).RowsOk := ((h.withdraw _).setEngine _).startNext
theorem completeWith (h : s.RowsOk) (j : RunningJob) {k : Slot} (hk : RowStore.wf Config.frameWidth k.pixels = true)
    (r : Record) : (s.completeWith j k r).RowsOk :=
  ((((h.setContext _ _).setTable _ _).setSlot _ _ (v := k.registered r _ _) hk).setEngine _).startNext
theorem completeJob (h : s.RowsOk) : s.completeJob.RowsOk := by
  unfold State.completeJob
  split
  · exact h
  · split
    · exact (h.setEngine _).startNext
    · exact h.completeWith _ (h.pixels _ _) _

/-! ### Frame store and screen -/

theorem fillSlot (h : s.RowsOk) (c : CamId) (k : SlotId) : (s.fillSlot c k).RowsOk :=
  h.setRing c (Ring.rowsOk_fill (h.rings c) k _)
theorem overrun (h : s.RowsOk) (c : CamId) : (s.overrun c).RowsOk :=
  (h.setRing c (v := { s.ring c with overruns := bump (s.ring c).overruns }) (h.rings c)).ask _
theorem malformedEnd (h : s.RowsOk) (c : CamId) (k : SlotId) : (s.malformedEnd c k).RowsOk :=
  h.setRing c (Ring.rowsOk_free (h.rings c) k)
theorem rejectedEnd (h : s.RowsOk) (c : CamId) (k : SlotId) : (s.rejectedEnd c k).RowsOk :=
  h.setRing c (Ring.rowsOk_free (h.rings c) k)
theorem scoredEnd (h : s.RowsOk) (c : CamId) (k : SlotId) (n : Nat) (v : Verdict) : (s.scoredEnd c k n v).RowsOk :=
  have counted (u : State) (g : u.RowsOk) : (u.setRing c ((u.ring c).countVerdict v)).RowsOk :=
    g.setRing c (by cases v <;> exact g.rings c)
  (counted _ (h.setSlot c k (v := (s.slot c k).scored n v) (h.pixels c k))).handOff _
theorem wellFormedEnd (h : s.RowsOk) (c : CamId) (k : SlotId) (n : Nat) : (s.wellFormedEnd c k n).RowsOk := by
  unfold State.wellFormedEnd
  dsimp only
  split
  · exact (h.setScreen _ _).rejectedEnd _ _
  · exact (h.setScreen _ _).scoredEnd _ _ _ _
theorem storeFrameEnd (h : s.RowsOk) (c : CamId) (w : Bool) (n : Nat) : (s.storeFrameEnd c w n).RowsOk := by
  unfold State.storeFrameEnd
  split
  · exact h
  · exact (h.wellFormedEnd _ _ _).ite (h.malformedEnd _ _) _
theorem storeLinkDown (h : s.RowsOk) (c : CamId) : (s.storeLinkDown c).RowsOk := by
  unfold State.storeLinkDown
  split
  · exact h
  · exact h.setRing c (Ring.rowsOk_free (h.rings c) _)

/-! ### Links -/

theorem failAttempt (h : s.RowsOk) (c : CamId) : (s.failAttempt c).RowsOk :=
  (h.setLink _ _).ite ((h.setLink _ _).ask _) _
theorem linkDown (h : s.RowsOk) (c : CamId) : (s.linkDown c).RowsOk :=
  ((h.storeLinkDown c).setContext _ _).setScreen _ _
theorem leaveLocked (h : s.RowsOk) (c : CamId) : (s.leaveLocked c).RowsOk :=
  (((h.setLink _ _).ask _).linkDown c).setLink _ _
theorem setOffered (h : s.RowsOk) (c : CamId) (o : Tap) : (s.setOffered c o).RowsOk := h.setLink _ _
theorem forceTapUpdate (h : s.RowsOk) (c : CamId) : (s.forceTapUpdate c).RowsOk := (h.setLink _ _).ite h _
theorem linkReset (h : s.RowsOk) (c : CamId) : (s.linkReset c).RowsOk := by
  unfold State.linkReset
  split
  · exact h.leaveLocked c
  · exact h.setLink _ _
  · exact h.setLink _ _
  · exact h.setLink _ _
  · exact h
theorem marker (h : s.RowsOk) (c : CamId) (n : Nat) {f : State → State} (hf : ∀ u : State, u.RowsOk → (f u).RowsOk) :
    (s.marker c n f).RowsOk := by
  unfold State.marker
  split
  · exact hf _ (h.setLink _ _)
  · exact h.setLink _ _
  all_goals exact h
theorem conceal (h : s.RowsOk) (c : CamId) (k : SlotId) : (s.conceal c k).RowsOk :=
  (h.setSlot c k (v := (s.slot c k).settle _ _) (RowStore.wf_write _ _ (h.pixels c k))).setLink _ _
theorem concealMany (h : s.RowsOk) (c : CamId) (k : SlotId) (n : Nat) : (s.concealMany c k n).RowsOk := by
  induction n generalizing s with
  | zero => exact h
  | succ n ih => exact ih (h.conceal c k)
theorem settleGood (h : s.RowsOk) (c : CamId) (k : SlotId) (row : List Word) : (s.settleGood c k row).RowsOk :=
  (h.setSlot c k (v := (s.slot c k).settle _ _) (RowStore.wf_write _ _ (h.pixels c k))).setLink _ _
theorem settleOpenBad (h : s.RowsOk) (c : CamId) (k : SlotId) : (s.settleOpenBad c k).RowsOk := by
  unfold State.settleOpenBad
  split
  · exact h
  · exact (h.conceal c k).setLink _ _
theorem countMalformed (h : s.RowsOk) (c : CamId) (m : Bool) : (s.countMalformed c m).RowsOk :=
  ((h.setLink _ _).ite (((h.setLink _ _).ask _).leaveLocked c) _).ite (h.setLink _ _) _
theorem endFrame (h : s.RowsOk) (c : CamId) (k : SlotId) (b : Bool) : (s.endFrame c k b).RowsOk :=
  have stored (l : Link) (w : Bool) (n : Nat) := ((h.settleOpenBad c k).setLink c l).storeFrameEnd c w n
  ((stored _ _ _).ite ((stored _ _ _).setLink _ _) _).countMalformed _ _
theorem beginFrame (h : s.RowsOk) (c : CamId) (n : Byte) : (s.beginFrame c n).RowsOk := by
  unfold State.beginFrame
  dsimp only
  refine setLink ?_ _ _
  have counted := (h.setLink c { s.link c with lastFrameCounter := n }).setRing c (v := (s.ring c).counted) (h.rings c)
  split
  · exact (counted.fillSlot _ _).setLink _ _
  · exact (counted.setLink _ _).overrun _
theorem takeFrameStart (h : s.RowsOk) (c : CamId) (n : Byte) : (s.takeFrameStart c n).RowsOk := by
  unfold State.takeFrameStart
  split
  · exact h.beginFrame _ _
  · exact h.beginFrame _ _
  · exact ((h.endFrame _ _ _).beginFrame _ _).ite (h.endFrame _ _ _) _
theorem takeFrameEnd (h : s.RowsOk) (c : CamId) : (s.takeFrameEnd c).RowsOk := by
  unfold State.takeFrameEnd
  split
  · exact h.setLink _ _
  · exact (h.setLink _ _).setLink _ _
  · exact h.endFrame _ _ _
theorem takeLineStart (h : s.RowsOk) (c : CamId) (k : SlotId) (n : Nat) : (s.takeLineStart c k n).RowsOk :=
  have closed := h.settleOpenBad c k
  closed.ite ((closed.setLink _ _).ite (((closed.concealMany _ _ _).setLink _ _).ite (closed.setLink _ _) _) _) _
theorem whileReceiving (h : s.RowsOk) (c : CamId) {f : SlotId → State → State}
    (hf : ∀ (k : SlotId) (u : State), u.RowsOk → (f k u).RowsOk) : (s.whileReceiving c f).RowsOk := by
  unfold State.whileReceiving
  split
  · exact hf _ _ h
  all_goals exact h
theorem takeLineEnd (h : s.RowsOk) (c : CamId) (k : SlotId) (w : Word) : (s.takeLineEnd c k w).RowsOk := by
  unfold State.takeLineEnd
  split
  · exact h
  · exact ((h.settleGood _ _ _).setLink _ _).ite ((h.conceal _ _).setLink _ _) _

/-! ### Outputs -/

theorem pinSlot (h : s.RowsOk) (c : CamId) (k : SlotId) : (s.pinSlot c k).RowsOk := h.setSlot c k (h.pixels c k)
theorem unpinSlot (h : s.RowsOk) (c : CamId) (k : SlotId) : (s.unpinSlot c k).RowsOk := h.setSlot c k (h.pixels c k)
theorem releasePin (h : s.RowsOk) (w : Window) : (s.releasePin w).RowsOk := by
  unfold State.releasePin
  split
  · exact h
  · exact h.unpinSlot _ _
theorem selectFor (h : s.RowsOk) (w : Window) (c : CamId) : (s.selectFor w c).1.RowsOk := by
  unfold State.selectFor
  split
  · split
    · exact h
    · exact (h.pinSlot _ _).releasePin _
  · split
    · exact h
    · exact h.releasePin _
theorem showLive (h : s.RowsOk) (o : OutId) : (s.showLive o).RowsOk := by
  unfold State.showLive
  dsimp only
  split
  · exact ((h.selectFor _ _).releasePin _).setOutput _ _
  · exact ((h.selectFor _ _).selectFor _ _).setOutput _ _
theorem setUpFrame (h : s.RowsOk) (o : OutId) : (s.setUpFrame o).RowsOk :=
  ((((h.setOutput _ _).releasePin _).releasePin _).setOutput _ _).ite ((h.setOutput _ _).showLive _) _
theorem outputFrame (h : s.RowsOk) (o : OutId) : (s.outputFrame o).RowsOk :=
  ((h.setUpFrame o).ask _).ite (h.setUpFrame o) _

/-! ### Still unit -/

theorem pinSource (h : s.RowsOk) (w : WinSource) : (s.pinSource w).RowsOk := by
  unfold State.pinSource
  split
  · exact h
  · exact h.pinSlot _ _
theorem unpinSource (h : s.RowsOk) (w : WinSource) : (s.unpinSource w).RowsOk := by
  unfold State.unpinSource
  split
  · exact h
  · exact h.unpinSlot _ _

/-- An operation that keeps the rows keeps them when it is repeated over a list. -/
theorem foldl {α : Type} {f : State → α → State} (hf : ∀ (u : State) (a : α), u.RowsOk → (f u a).RowsOk) (l : List α)
    (h : s.RowsOk) : (l.foldl f s).RowsOk := by
  induction l generalizing s with
  | nil => exact h
  | cons a l ih => exact ih (hf s a h)

/-- A copy that starts empties its still (log entry 13). -/
theorem startCopy (h : s.RowsOk) (r : CopyRecord) (src : Sources) : (s.startCopy r src).RowsOk :=
  have emptied := h.setStill r.output
    (v := { s.still r.output with valid := false, pixels := [], desc := some (s.describe src) }) (RowStore.wf_nil _)
  foldl (fun _ w g => g.pinSource w) src.windows (emptied.setRunning _)
theorem startFrom (h : s.RowsOk) (l : List CopyRecord) : (s.startFrom l).RowsOk := by
  induction l generalizing s with
  | nil => exact h.setWaiting _
  | cons r l ih => exact ((h.setWaiting l).startCopy _ _).ite (ih (h.ask _)) _
theorem startPending (h : s.RowsOk) : s.startPending.RowsOk := by
  unfold State.startPending
  split
  · exact h.startFrom _
  · exact h
theorem stopCopy (h : s.RowsOk) (src : Sources) : (s.stopCopy src).RowsOk :=
  (foldl (fun _ w g => g.unpinSource w) src.windows h).setRunning _
theorem composeStill_wf (s : State) (src : Sources) : RowStore.wf Config.viewWidth (s.composeStill src) = true :=
  RowStore.wf_composed _ _ _
theorem completeCopy (h : s.RowsOk) : s.completeCopy.RowsOk := by
  unfold State.completeCopy
  split
  · exact h
  · exact ((((h.setStill _ (composeStill_wf s _)).stopCopy _).setOutput _ _).ask _).startPending

/-- A copy that ends before its completion leaves its still's pixels (R180, R181). -/
theorem endCopy (h : s.RowsOk) (o : OutId) (res : Result) {f : Still → Still} (hf : ∀ v, (f v).pixels = v.pixels) :
    (s.endCopy o res f).RowsOk := by
  have counted {u : State} (g : u.RowsOk) : (u.setStill o (f (u.still o))).RowsOk :=
    g.setStill o (by rw [hf]; exact g.stillPixels o)
  unfold State.endCopy
  split
  · exact ask (counted (h.setWaiting _)) _
  · exact (ask (counted (h.stopCopy _)) _).startPending
  · exact h
theorem abortCopy (h : s.RowsOk) (o : OutId) : (s.abortCopy o).RowsOk := h.endCopy o _ (fun _ => rfl)
theorem cancelCopy (h : s.RowsOk) (o : OutId) : (s.cancelCopy o).RowsOk := h.endCopy o _ (fun _ => rfl)
theorem freeze (h : s.RowsOk) (node : Byte) (k : ReqSlot) (o : OutId) : (s.freeze node k o).RowsOk :=
  (h.ask _).ite ((h.setWaiting _).startPending.ite (h.ask _) _) _
theorem unfreeze (h : s.RowsOk) (node : Byte) (o : OutId) : (s.unfreeze node o).RowsOk :=
  ((h.cancelCopy _).ask _).ite (((h.setOutput _ _).ask _).ite (h.ask _) _) _

/-! ### Arbiter -/

theorem grantChange (h : s.RowsOk) (o : OutId) : (s.grantChange o).RowsOk :=
  (((h.setOutput _ _).abortCopy o).ask _).setArbiter _
theorem grantTo (h : s.RowsOk) (o : OutId) (r : Requester) : (s.grantTo o r).RowsOk :=
  ((h.setArbiter _).setArbiter _).grantChange o
theorem grantDefault (h : s.RowsOk) (o : OutId) : (s.grantDefault o).RowsOk := (h.setArbiter _).grantChange o
theorem grantBest (h : s.RowsOk) (o : OutId) : (s.grantBest o).RowsOk := by
  unfold State.grantBest
  split
  · exact h.grantTo _ _
  · exact h.grantDefault _
theorem afterReceipt (h : s.RowsOk) (o : OutId) (r : Requester) (e : Entry) : (s.afterReceipt o r e).RowsOk := by
  unfold State.afterReceipt
  split
  · exact h.grantTo _ _
  · exact ((h.grantTo _ _).ite (h.grantBest _) _).ite
      ((h.grantBest _).ite ((h.grantTo _ _).ite (h.setArbiter _) _) _) _
theorem receive (h : s.RowsOk) (o : OutId) (r : Requester) (v : View) (p hold : Nat) :
    (s.receive o r v p hold).RowsOk := ((h.setArbiter _).setArbiter _).afterReceipt _ _ _
theorem afterRemoval (h : s.RowsOk) (o : OutId) (r : Requester) : (s.afterRemoval o r).RowsOk :=
  (h.grantBest _).ite (h.setArbiter _) _
theorem afterExpiry (h : s.RowsOk) (o : OutId) (r : Requester) : (s.afterExpiry o r).RowsOk := by
  unfold State.afterExpiry
  refine ite ?_ (h.setArbiter _) _
  split
  · exact (h.grantDefault _).grantTo _ _
  · exact h.grantDefault _
theorem remove (h : s.RowsOk) (o : OutId) (r : Requester) : (s.remove o r).RowsOk := by
  unfold State.remove
  split
  · exact h
  · exact (h.setArbiter _).afterRemoval _ _
theorem dwellElapsed (h : s.RowsOk) (o : OutId) : (s.dwellElapsed o).RowsOk := by
  unfold State.dwellElapsed
  split
  · exact h.grantTo _ _
  · exact h.setArbiter _
theorem dwellWritten (h : s.RowsOk) (o : OutId) : (s.dwellWritten o).RowsOk :=
  (h.dwellElapsed _).ite ((h.setArbiter _).ite h _) _
theorem dropPersistent (h : s.RowsOk) (k : ReqSlot) (o : OutId) : (s.dropPersistent k o).RowsOk :=
  (h.setArbiter _).ite h _
theorem expire (h : s.RowsOk) (k : ReqSlot) : (s.expire k).RowsOk :=
  have noted (a : Arbiter) (m : Message) := (((h.dropPersistent k .a).dropPersistent k .b).setArbiter a).ask m
  have onA (a : Arbiter) (m : Message) := ((noted a m).afterExpiry .a (.master k)).ite (noted a m) _
  ((onA _ _).afterExpiry _ _).ite (onA _ _) _
theorem keepaliveWritten (h : s.RowsOk) (k : ReqSlot) : (s.keepaliveWritten k).RowsOk := by
  unfold State.keepaliveWritten
  split
  · exact h
  · exact (h.expire _).ite h _
theorem nodeCodeChanged (h : s.RowsOk) (k : ReqSlot) : (s.nodeCodeChanged k).RowsOk :=
  ((h.remove _ _).remove _ _).setArbiter _
theorem afterLowering (h : s.RowsOk) (o : OutId) (r : Requester) (e : Entry) : (s.afterLowering o r e).RowsOk :=
  (((h.ask _).setArbiter _).ite (h.grantBest _) _).ite (h.setArbiter _) _
theorem lowerEntry (h : s.RowsOk) (k : ReqSlot) (p : Nat) (o : OutId) : (s.lowerEntry k p o).RowsOk := by
  unfold State.lowerEntry
  split
  · exact h
  · exact ((h.setArbiter _).afterLowering _ _ _).ite h _
theorem augerCreate (h : s.RowsOk) : s.augerCreate.RowsOk := h.receive _ _ _ _ _
theorem augerRemove (h : s.RowsOk) : s.augerRemove.RowsOk := (h.remove _ _).remove _ _
theorem augerChanged (h : s.RowsOk) (a b : AugerState) : (s.augerChanged a b).RowsOk :=
  (h.augerCreate.ite h _).ite (h.augerRemove.ite h _) _
theorem augerPriorityChanged (h : s.RowsOk) : s.augerPriorityChanged.RowsOk := h.augerRemove.ite (h.augerCreate.ite h _) _
theorem augerCameraChanged (h : s.RowsOk) : s.augerCameraChanged.RowsOk := h.augerCreate.ite h _
theorem augerOutputChanged (h : s.RowsOk) : s.augerOutputChanged.RowsOk := h.augerRemove.augerCreate.ite h _

/-! ### Encoder channels -/

theorem changeChannel (h : s.RowsOk) (e : ChanId) (ch : Channel) : (s.changeChannel e ch).RowsOk :=
  have reported := ((h.setChannel e ch).ask (.encoderReport e)).ite (h.setChannel e ch) _
  (reported.augerChanged _ _).ite reported _
theorem noticeRise (h : s.RowsOk) (e : ChanId) (code : FaultCode) (b : Bool) (n : Nat) :
    (s.noticeRise e code b n).RowsOk := (h.ask _).ite h _
theorem stopChannel (h : s.RowsOk) (e : ChanId) : (s.stopChannel e).RowsOk := (h.ask _).changeChannel _ _
theorem reboundPosition (h : s.RowsOk) (e : ChanId) : (s.reboundPosition e).RowsOk := by
  unfold State.reboundPosition
  dsimp only
  split
  · exact h.setChannel _ _
  · exact h
theorem maxPeriodWritten (h : s.RowsOk) (e : ChanId) : (s.maxPeriodWritten e).RowsOk := by
  unfold State.maxPeriodWritten
  split
  · exact h
  · exact (h.stopChannel _).ite h _

/-! ### Stored writes -/

theorem linkEnableChanged (h : s.RowsOk) (c : CamId) (on : Bool) : (s.linkEnableChanged c on).RowsOk :=
  ((h.setLink _ _).ite h _).ite (((h.linkDown c).ite h _).setLink _ _) _
theorem camWritten (h : s.RowsOk) (c : CamId) (p : CamParam) (old new : Int) : (s.camWritten c p old new).RowsOk := by
  cases p
  case linkEnable => exact h.ite (h.linkEnableChanged c _) _
  case tapOverride => exact h.forceTapUpdate c
  case tapGate => exact (h.setLink _ _).ite h _
  case holdLimit => exact h.setScreen _ _
  case phaseSource => exact h.ite (h.clearTable c) _
  all_goals exact h
theorem chanWritten (h : s.RowsOk) (e : ChanId) (p : ChanParam) (old new : Int) : (s.chanWritten e p old new).RowsOk := by
  have rebound := (h.reboundPosition e).ite ((h.reboundPosition e).clearBound e) (old = new)
  cases p
  case enable => exact h.ite ((h.changeChannel _ _).ite (h.changeChannel _ _) _) _
  case mode => exact rebound
  case cpr => exact rebound
  case maxPeriod => exact h.maxPeriodWritten e
  case outThreshold => exact h.changeChannel _ _
  case inThreshold => exact h.changeChannel _ _
  all_goals exact h
theorem outWritten (h : s.RowsOk) (o : OutId) (p : OutParam) (old new : Int) : (s.outWritten o p old new).RowsOk := by
  cases p
  case rasterRate => exact (h.setOutput _ _).ite h _
  all_goals exact h
theorem written (h : s.RowsOk) (id : ParamId) (old new : Int) : (s.written id old new).RowsOk := by
  cases id with
  | cam c p => exact h.camWritten c p old new
  | chan e p => exact h.chanWritten e p old new
  | out o p => exact h.outWritten o p old new
  | dwell => exact (h.dwellWritten _).dwellWritten _
  | keepalive => exact foldl (fun _ k g => g.keepaliveWritten k) _ h
  | augerOutput => exact h.ite h.augerOutputChanged _
  | augerCamera => exact h.ite h.augerCameraChanged _
  | augerPriority => exact h.ite h.augerPriorityChanged _
  | nodeCode k => exact h.ite (h.nodeCodeChanged k) _
  | maxPriority k => exact ((h.lowerEntry _ _ _).lowerEntry _ _ _).ite h _
theorem writeParam (h : s.RowsOk) (node : Byte) (number : Word) (id : ParamId) (v : Int) :
    (s.writeParam node number id v).RowsOk := by
  have stored : (s.storeParam id v).RowsOk := (h.setParams _).written _ _ _
  unfold State.writeParam
  split
  · exact stored.ask _
  · exact stored.ask _
  · exact h.ask _

/-! ### Commands and the soft reset -/

theorem whenBit (h : s.RowsOk) (bits : Word) (i : Nat) {f : State → State}
    (hf : ∀ u : State, u.RowsOk → (f u).RowsOk) : (Machine.whenBit bits i f s).RowsOk := (hf _ h).ite h _
theorem clearCameraCounts (h : s.RowsOk) (c : CamId) : (s.clearCameraCounts c).RowsOk :=
  (((h.setLink _ _).setRing c (v := (s.ring c).clearCounts) (h.rings c)).setContext _ _).setTable _ _
theorem cameraCommands (h : s.RowsOk) (c : CamId) (bits : Word) : (Machine.cameraCommands c bits s).RowsOk :=
  ((((h.whenBit bits 0 (fun _ g => g.linkReset c)).whenBit bits 1 (fun _ g => g.setContext _ _)).whenBit bits 2
    (fun _ g => g.clearTable c)).whenBit bits 3 (fun _ g => g.forceTapUpdate c)).whenBit bits 4
    (fun _ g => g.clearCameraCounts c)
theorem encoderCommands (h : s.RowsOk) (e : ChanId) (bits : Word) : (Machine.encoderCommands e bits s).RowsOk :=
  (((h.whenBit bits 0 (fun _ g => g.changeChannel e _)).whenBit bits 1 (fun _ g => g.setChannel _ _)).whenBit bits 2
    (fun _ g => g.setChannel _ _)).whenBit bits 3 (fun _ g => g.setChannel _ _)
theorem softResetLink (h : s.RowsOk) (c : CamId) : (s.softResetLink c).RowsOk := ((h.linkDown c).ite h _).setLink _ _

/-- The slots of a soft reset keep their rows, its stills have none (log entries 13, 36). -/
theorem softResetBlocks (h : s.RowsOk) : s.softResetBlocks.RowsOk := by
  have linked : (CamId.all.foldl State.softResetLink s).RowsOk := foldl (fun _ c g => g.softResetLink c) _ h
  refine (augerCreate ?_).ite ?_ _ <;>
  · refine ⟨fun c k => ?_, fun o => ?_⟩
    · simpa [State.slot, State.ring, Ring.softReset, Slot.softReset] using linked.pixels c k
    · simp [State.still, StillUnit.softReset, Still.softReset, RowStore.wf_nil]
theorem softReset (h : s.RowsOk) (node : Byte) (underWay : Bool) : (s.softReset node underWay).RowsOk :=
  (((h.setMi _).ask _).ask _ |>.ask _).softResetBlocks

/-- The part as it starts holds no row, and no still (R68, R185). -/
theorem start (l : BootLevels) : (State.start l).RowsOk := by
  refine ⟨fun c k => ?_, fun o => ?_⟩
  · simp [State.slot, State.ring, State.start, Ring.initial, Slot.initial, RowStore.wf_nil]
  · cases o <;> exact RowStore.wf_nil _

/-! ### Messages -/

theorem takeHead (h : s.RowsOk) : (Machine.takeHead s).RowsOk := by
  rw [takeHead_rest]
  exact h.setMi _
theorem onReceipt (h : s.RowsOk) {f : State → State} (hf : ∀ u : State, u.RowsOk → (f u).RowsOk) :
    (Machine.onReceipt f s).RowsOk := (hf _ (h.setMi _)).ite h _
theorem fromNode (h : s.RowsOk) (node : Byte) {unknown : State → State} {known : ReqSlot → State → State}
    (hu : ∀ u : State, u.RowsOk → (unknown u).RowsOk) (hk : ∀ (k : ReqSlot) (u : State), u.RowsOk → (known k u).RowsOk) :
    (Machine.fromNode node unknown known s).RowsOk := by
  unfold Machine.fromNode
  split
  · exact hu _ h
  · exact hk _ _ (h.setArbiter _)
theorem paramMessage (h : s.RowsOk) (node : Byte) (id : ParamId) (value : BitVec 32) :
    (Machine.paramMessage node id value s).RowsOk :=
  h.fromNode node (fun _ g => g.ask _) (fun _ _ g => g.writeParam _ _ _ _)
theorem obey (h : s.RowsOk) (node : Byte) (t : Target) (bits : Word) (underWay : Bool) :
    (Machine.obey node t bits underWay s).RowsOk := by
  cases t with
  | camera c => exact (h.cameraCommands c bits).ask _
  | encoder e => exact (h.encoderCommands e bits).ask _
  | device => exact (h.softReset node underWay).ite (h.ask _) _
theorem commandMessage (h : s.RowsOk) (node target : Byte) (bits : Word) (underWay : Bool) :
    (Machine.commandMessage node target bits underWay s).RowsOk := by
  refine h.fromNode node (fun _ g => g.ask _) (fun _ u g => ?_)
  split
  · exact g.ask _
  · exact g.obey _ _ _ _
theorem freezeMessage (h : s.RowsOk) (node output action : Byte) :
    (Machine.freezeMessage node output action s).RowsOk := by
  refine h.fromNode node (fun _ g => g.ask _) (fun k u g => ?_)
  split
  · exact g.ask _
  · exact (g.ask _).ite ((g.ask _).ite ((g.freeze _ _ _).ite (g.unfreeze _ _) _) _) _
theorem viewRequestMessage (h : s.RowsOk) (node output layout camA camB priority : Byte) (hold : Word) :
    (Machine.viewRequestMessage node output layout camA camB priority hold s).RowsOk := by
  refine h.fromNode node (fun _ g => g.ask _) (fun k u g => ?_)
  split
  · exact g.ask _
  · split
    · exact g.ask _
    · exact (g.receive _ _ _ _ _).ask _
theorem viewReleaseMessage (h : s.RowsOk) (node output : Byte) : (Machine.viewReleaseMessage node output s).RowsOk := by
  refine h.fromNode node (fun _ g => g.ask _) (fun k u g => ?_)
  split
  · exact g.ask _
  · split
    · exact g.ask _
    · exact (g.remove _ _).ask _
theorem keepaliveMessage (h : s.RowsOk) (node : Byte) : (Machine.keepaliveMessage node s).RowsOk :=
  h.fromNode node (fun _ g => g) (fun _ _ g => g)

end State.RowsOk

end Sys2Proof.Machine
end

section
/-! Frame buffers and stills, command by command. -/

namespace Sys2Proof.Machine

namespace State.RowsOk

variable {s t : State}

theorem event (h : s.RowsOk) {f : State → State} (hf : ∀ u : State, u.RowsOk → (f u).RowsOk)
    (e : Machine.event f s = .next t) : t.RowsOk := by
  cases hh : s.held
  · rw [event_running hh] at e
    cases e
    exact (hf s h).takeHead
  · rw [event_held hh] at e
    cases e
    exact h

theorem message (h : s.RowsOk) {f : State → State} (hf : ∀ u : State, u.RowsOk → (f u).RowsOk)
    (e : Machine.event (Machine.onReceipt f) s = .next t) : t.RowsOk :=
  h.event (fun _ g => g.onReceipt hf) e

theorem paramRow (h : s.RowsOk) {node : Byte} {id : ParamId} {value : BitVec 32}
    (e : Machine.event (Machine.onReceipt (Machine.paramMessage node id value)) s = .next t) : t.RowsOk :=
  h.message (fun _ g => g.paramMessage node id value) e

theorem bitRow (h : s.RowsOk) {node : Byte} {target : Target} {bits : Word} {i : Nat}
    (e : Machine.event (Machine.onReceipt (Machine.bitCommand node target bits i false)) s = .next t) : t.RowsOk :=
  h.message (fun _ g => g.commandMessage node target.byte _ false) e

theorem paramReadMessage (h : s.RowsOk) (node : Byte) (number : Word) :
    (Machine.paramReadMessage node number s).RowsOk := by
  refine h.fromNode node (fun _ g => g.ask _) (fun _ u g => ?_)
  split
  · exact g.ask _
  · exact g.ask _
  · exact g.ask _
theorem paramWriteMessage (h : s.RowsOk) (node : Byte) (number : Word) (value : BitVec 32) :
    (Machine.paramWriteMessage node number value s).RowsOk := by
  refine h.fromNode node (fun _ g => g.ask _) (fun _ u g => ?_)
  split
  · exact g.writeParam _ _ _ _
  · exact g.ask _
  · exact g.ask _

/-- A frame, whatever message it carries. -/
theorem takeFrame (h : s.RowsOk) (f : CanFrame) : (Machine.takeFrame f s).RowsOk := by
  unfold Machine.takeFrame
  split
  · exact h
  · rename_i kind _
    cases kind with
    | viewRequest => exact h.viewRequestMessage _ _ _ _ _ _ _
    | viewRelease => exact h.viewReleaseMessage _ _
    | freeze => exact h.freezeMessage _ _ _
    | paramWrite => exact h.paramWriteMessage _ _ _
    | paramRead => exact h.paramReadMessage _ _
    | command => exact h.commandMessage _ _ _ _
    | keepalive => exact h.keepaliveMessage _

/-! ### The rows of the table with work of their own -/

theorem referenceUnlock (h : s.RowsOk) {c : CamId} (e : execReferenceUnlock c s = .next t) : t.RowsOk := by
  refine h.event (fun u g => ?_) e
  split
  · exact g.failAttempt c
  · exact g.leaveLocked c
  all_goals exact g

theorem wordClock (h : s.RowsOk) {c : CamId} (e : execWordClock c s = .next t) : t.RowsOk := by
  refine h.event (fun u g => ?_) e
  split
  · exact g.setLink _ _
  · exact g.setLink _ _
  all_goals exact g

theorem pixelWord (h : s.RowsOk) {c : CamId} {w : Word} (e : execPixelWord c w s = .next t) : t.RowsOk := by
  refine h.event (fun u g => ?_) e
  split
  · exact g.setLink _ _
  · exact g.setLink _ _
  all_goals exact g

theorem stopWatchExpiry (h : s.RowsOk) {c : ChanId} (e : execStopWatchExpiry c s = .next t) : t.RowsOk := by
  refine h.event (fun u g => ?_) e
  split
  · exact g
  · exact (g.stopChannel _).ite g _

theorem timedExpiry (h : s.RowsOk) {r : Requester} {o : OutId} (e : execTimedExpiry r o s = .next t) : t.RowsOk := by
  refine h.event (fun u g => ?_) e
  split
  · exact g
  · exact (g.remove _ _).ite g _

theorem keepaliveExpiry (h : s.RowsOk) {k : ReqSlot} (e : execKeepaliveExpiry k s = .next t) : t.RowsOk := by
  refine h.event (fun u g => ?_) e
  split
  · exact g
  · exact (g.expire _).ite g _

theorem encoderTimer (h : s.RowsOk) (e : execEncoderTimer s = .next t) : t.RowsOk := by
  refine h.event (fun u g => ite ?_ g _) e
  dsimp only
  split
  · exact g.setMi _
  · exact ((g.setMi _).setMi _).ask _

theorem softResetRow (h : s.RowsOk) {node : Byte} {bits : Word} {underWay : Bool}
    (e : execSoftReset node bits underWay s = .next t) : t.RowsOk :=
  h.event (fun _ g => (g.commandMessage _ _ _ _).ite (g.onReceipt (fun _ g => g.commandMessage _ _ _ _)) _) e

/-- Power-up and the RESET line leave no row and no still (R68, R185, R211). -/
theorem powerUp (l : BootLevels) (s : State) : (s.powerUp l).RowsOk := (start l).of_eq rfl rfl

theorem setPending (h : s.RowsOk) (l : List Instr) : State.RowsOk { s with pending := l } := h.of_eq rfl rfl

theorem tick (h : s.RowsOk) : (Machine.tick s).RowsOk := by
  cases hh : s.held
  · rw [tick_of_running hh]
    exact h.of_eq rfl rfl
  · rw [tick_of_held hh]
    exact h

/-- Every command keeps frame buffers and stills canonical. -/
theorem exec (h : s.RowsOk) (i : Instr) (e : Machine.exec i s = .next t) : t.RowsOk := by
  cases i with
  | powerOn l => cases e; exact powerUp l s
  | resetLine l => cases e; exact powerUp l s
  | resetLineActive => cases e; exact (powerUp s.pinLevels s).of_eq rfl rfl
  | setupLineChange level => cases e; exact h.of_eq rfl rfl
  | referenceLock c _ => exact h.event (fun u g => (g.setLink c _).ite g _) e
  | acquireTimeout c => exact h.event (fun u g => (g.failAttempt c).ite g _) e
  | gateEnd c => exact h.event (fun u g => ((g.setLink c _).ite (g.failAttempt c) _).ite g _) e
  | referenceUnlock c => exact h.referenceUnlock e
  | backoffEnd c => exact h.event (fun u g => (g.setLink c _).ite g _) e
  | signalLoss c => exact h.event (fun u g => (g.leaveLocked c).ite g _) e
  | frameStart c n _ => exact h.event (fun u g => g.marker c 2 (fun _ g => (g.setOffered c _).takeFrameStart c n)) e
  | lineStart c _ =>
    exact h.event (fun u g => g.marker c 2 (fun _ g => g.whileReceiving c (fun k _ g => g.takeLineStart c k _))) e
  | pixelWord c w => exact h.pixelWord e
  | lineEnd c w =>
    exact h.event (fun u g => g.marker c 2 (fun _ g => g.whileReceiving c (fun k _ g => g.takeLineEnd c k w))) e
  | frameEnd c _ => exact h.event (fun u g => g.marker c 1 (fun _ g => (g.setOffered c _).takeFrameEnd c)) e
  | wordClock c => exact h.wordClock e
  | jobCompletion => exact h.event (fun _ g => g.completeJob) e
  | quadratureEdge c _ _ => exact h.event (fun u g => (g.setChannel c _).ite (g.changeChannel c _) _) e
  | indexEdge c _ =>
    exact h.event (fun u g => (g.setChannel c _).ite ((g.noticeRise c _ _ _).changeChannel c _) _) e
  | stopWatchExpiry c => exact h.stopWatchExpiry e
  | outputFrameStart o => exact h.event (fun u g => (g.outputFrame o).ite g _) e
  | viewRequest => exact h.message (fun u g => g.viewRequestMessage _ _ _ _ _ _ _) e
  | viewRelease => exact h.message (fun u g => g.viewReleaseMessage _ _) e
  | timedExpiry r o => exact h.timedExpiry e
  | keepaliveExpiry k => exact h.keepaliveExpiry e
  | dwellExpiry o => exact h.event (fun u g => (g.dwellElapsed o).ite g _) e
  | freeze => exact h.message (fun u g => g.freezeMessage _ _ _) e
  | unfreeze => exact h.message (fun u g => g.freezeMessage _ _ _) e
  | copyCompletion => exact h.event (fun _ g => g.completeCopy) e
  | paramWrite => exact h.message (fun u g => g.paramWriteMessage _ _ _) e
  | paramRead => exact h.message (fun u g => g.paramReadMessage _ _) e
  | keepalive => exact h.message (fun u g => g.keepaliveMessage _) e
  | canFrameIgnored f => exact h.message (fun u g => g.takeFrame f) e
  | linkReset => exact h.bitRow e
  | refRefresh => exact h.bitRow e
  | tableClear => exact h.bitRow e
  | forceTapUpdate => exact h.message (fun u g => (g.setOffered _ _).commandMessage _ _ _ _) e
  | clearCounts => exact h.bitRow e
  | clearPosition => exact h.bitRow e
  | armIndex => exact h.bitRow e
  | releaseCapture => exact h.bitRow e
  | clearCountsEncoder => exact h.bitRow e
  | softReset => exact h.softResetRow e
  | command => exact h.message (fun u g => g.commandMessage _ _ _ _) e
  | linkEnable => exact h.paramRow e
  | tapOverride => exact h.message (fun u g => (g.setOffered _ _).paramMessage _ _ _) e
  | tapGate => exact h.message (fun u g => (g.setOffered _ _).paramMessage _ _ _) e
  | holdLimit => exact h.paramRow e
  | phaseSource => exact h.paramRow e
  | enable => exact h.paramRow e
  | mode => exact h.paramRow e
  | cpr => exact h.paramRow e
  | maxPeriod => exact h.paramRow e
  | outThreshold => exact h.paramRow e
  | inThreshold => exact h.paramRow e
  | dwell => exact h.paramRow e
  | keepaliveParamWrite => exact h.paramRow e
  | augerPriority => exact h.paramRow e
  | augerCamera => exact h.paramRow e
  | augerOutput => exact h.paramRow e
  | slotNodeCode => exact h.paramRow e
  | slotMaxPriority => exact h.paramRow e
  | viewStatusTimer => exact h.event (fun u g => (((g.setMi _).ask _).ask _).ite g _) e
  | cameraTimer => exact h.event (fun u g => ((g.setMi _).ask _).ite g _) e
  | encoderTimer => exact h.encoderTimer e
  | frameSent => exact h.event (fun u g => (g.setMi _).ite g _) e
  | transmitError => exact h.event (fun u g => (g.setMi _).ite g _) e
  | receiveError => exact h.event (fun u g => (g.setMi _).ite g _) e
  | busJoin => exact h.event (fun u g => (g.setMi _).ite g _) e
  | busOffRecovery => exact h.event (fun u g => ((g.setMi _).ite (g.setMi _) _).ite g _) e

end State.RowsOk

end Sys2Proof.Machine

open Sys2Proof Sys2Proof.Machine

/-- Settles O7: an idle step moves the timebase alone, and every command is made of operations that keep the rows of frame
buffers and stills canonical. -/
theorem frameBuffersStayCanonical : Obligations.FrameBuffersStayCanonical := by
  unfold Obligations.FrameBuffersStayCanonical
  intro s t h e
  cases front : s.pending with
  | nil =>
    rw [step_of_pending_nil front] at e
    cases e
    exact h.tick
  | cons c rest =>
    rw [step_of_pending_cons front] at e
    exact State.RowsOk.exec (h.setPending rest) c e

end

section
/-! Camera links: their states, timers and link words. What each operation on a link makes of it, and the statements about
training, failed attempts and the words counted in VERIFY. -/

namespace Sys2Proof.Machine

variable {s : State} {c : CamId}

theorem due_iff {since now : Time} {us : Nat} : due since now us = true ↔ us ≤ (now - since).toNat := by
  rw [due, decide_eq_true_iff, elapsed]

/-! ### Tap updates (R13, R14) -/

theorem Link.updateTap_eq (l : Link) (override : Int) :
    l.updateTap override = if 0 ≤ override then BitVec.ofInt 7 override else l.offered := rfl

/-- With no line open a tap update moves the tap alone. -/
theorem Link.applyUpdate_of_no_line {l : Link} (h : l.openLine = none) (override : Int) :
    l.applyUpdate override = { l with tap := l.updateTap override } := by
  simp only [Link.applyUpdate, h, Option.map_none, ite_self]

/-! ### The gate (R6) -/

theorem Link.gatePasses_iff {l : Link} : l.gatePasses = true ↔
    l.gateRate ≤ l.wordClocks + l.gateRate / 200 ∧ l.wordClocks ≤ l.gateRate + l.gateRate / 200 := by
  simp [Link.gatePasses]

/-! ### Failed attempts (R7) -/

theorem State.failAttempt_below (h : (s.link c).attempts + 1 < 4) :
    s.failAttempt c = s.setLink c ((s.link c).acquire ((s.link c).attempts + 1) s.timebase) := if_pos h

theorem State.failAttempt_fourth (h : 4 ≤ (s.link c).attempts + 1) :
    s.failAttempt c = (s.setLink c ((s.link c).fail s.timebase)).notice .linkFailed c.num
      (bump (s.link c).failureCount) := if_neg (Nat.not_lt.mpr h)

/-! ### Timers and the reference, as they act (R5–R9) -/

theorem exec_referenceLock (running : s.held = false) (acquiring : (s.link c).state = .acquire) (offered : Tap) :
    exec (.referenceLock c offered) s = .next (takeHead (s.setLink c
      ((Link.applyUpdate { s.link c with offered := offered } (s.camParams c).tapOverride).verify
        (s.camParams c).linkRate s.timebase))) := by
  simp only [exec, execReferenceLock, event_running running, acquiring, if_true]

theorem exec_referenceLock_elsewhere (running : s.held = false) (elsewhere : (s.link c).state ≠ .acquire)
    (offered : Tap) : exec (.referenceLock c offered) s = .next (takeHead s) := by
  simp only [exec, execReferenceLock, event_running running, elsewhere, if_false]

theorem exec_acquireTimeout (running : s.held = false) (acquiring : (s.link c).state = .acquire)
    (expired : 1000 ≤ (s.timebase - (s.link c).timerStart).toNat) :
    exec (.acquireTimeout c) s = .next (takeHead (s.failAttempt c)) := by
  simp only [exec, execAcquireTimeout, event_running running, acquiring, due_iff.mpr expired, and_self, if_true]

theorem exec_gateEnd_pass (running : s.held = false) (verifying : (s.link c).state = .verify)
    (expired : 1000 ≤ (s.timebase - (s.link c).timerStart).toNat) (pass : (s.link c).gatePasses = true) :
    exec (.gateEnd c) s = .next (takeHead (s.setLink c ((s.link c).lock s.timebase))) := by
  simp only [exec, execGateEnd, event_running running, verifying, due_iff.mpr expired, and_self, if_true, pass]

theorem exec_gateEnd_fail (running : s.held = false) (verifying : (s.link c).state = .verify)
    (expired : 1000 ≤ (s.timebase - (s.link c).timerStart).toNat) (fail : ¬(s.link c).gatePasses = true) :
    exec (.gateEnd c) s = .next (takeHead (s.failAttempt c)) := by
  simp only [exec, execGateEnd, event_running running, verifying, due_iff.mpr expired, and_self, if_true, fail,
    Bool.false_eq_true, if_false]

theorem exec_referenceUnlock_verify (running : s.held = false) (verifying : (s.link c).state = .verify) :
    exec (.referenceUnlock c) s = .next (takeHead (s.failAttempt c)) := by
  simp only [exec, execReferenceUnlock, event_running running, verifying]

theorem exec_referenceUnlock_locked (running : s.held = false) (locked : (s.link c).state = .locked) :
    exec (.referenceUnlock c) s = .next (takeHead (s.leaveLocked c)) := by
  simp only [exec, execReferenceUnlock, event_running running, locked]

theorem exec_backoffEnd (running : s.held = false) (failed : (s.link c).state = .failed)
    (expired : 2000000 ≤ (s.timebase - (s.link c).timerStart).toNat) :
    exec (.backoffEnd c) s = .next (takeHead (s.setLink c ((s.link c).acquire 0 s.timebase))) := by
  simp only [exec, execBackoffEnd, event_running running, failed, due_iff.mpr expired, and_self, if_true]

theorem exec_signalLoss (running : s.held = false) (locked : (s.link c).state = .locked)
    (expired : 2000 ≤ (s.timebase - (s.link c).timerStart).toNat) :
    exec (.signalLoss c) s = .next (takeHead (s.leaveLocked c)) := by
  simp only [exec, execSignalLoss, event_running running, locked, due_iff.mpr expired, and_self, if_true]

/-! ### Markers and other link words, by the link's state (R4–R8) -/

/-- The state in which a marker is taken in LOCKED: it has restarted the signal-loss timer (R9). -/
def State.marked (s : State) (c : CamId) : State := s.setLink c { s.link c with timerStart := s.timebase }

theorem State.marked_link (s : State) (c : CamId) :
    (s.marked c).link c = { s.link c with timerStart := s.timebase } := by
  rw [State.marked, State.setLink_link, if_pos rfl]

theorem State.marker_locked (locked : (s.link c).state = .locked) (words : Nat) (f : State → State) :
    s.marker c words f = f (s.marked c) := by
  simp only [State.marker, locked, State.marked]

theorem State.marker_verify (verifying : (s.link c).state = .verify) (words : Nat) (f : State → State) :
    s.marker c words f = s.countWords c words := by
  simp only [State.marker, verifying]

/-- The link states in which every link word is discarded. -/
def LinkState.Deaf (l : LinkState) : Prop := l = .down ∨ l = .acquire ∨ l = .failed

theorem State.marker_deaf (deaf : (s.link c).state.Deaf) (words : Nat) (f : State → State) :
    s.marker c words f = s := by
  rcases deaf with h | h | h <;> simp only [State.marker, h]

theorem exec_wordClock_verify (running : s.held = false) (verifying : (s.link c).state = .verify) :
    exec (.wordClock c) s = .next (takeHead (s.countWords c 1)) := by
  simp only [exec, execWordClock, event_running running, verifying]

theorem exec_wordClock_deaf (running : s.held = false) (deaf : (s.link c).state.Deaf) :
    exec (.wordClock c) s = .next (takeHead s) := by
  rcases deaf with h | h | h <;> simp only [exec, execWordClock, event_running running, h]

theorem exec_wordClock_locked (running : s.held = false) (locked : (s.link c).state = .locked) :
    exec (.wordClock c) s = .next (takeHead (s.skipWords c)) := by
  simp only [exec, execWordClock, event_running running, locked]

theorem exec_pixelWord_verify (running : s.held = false) (verifying : (s.link c).state = .verify) (w : Word) :
    exec (.pixelWord c w) s = .next (takeHead (s.countWords c 1)) := by
  simp only [exec, execPixelWord, event_running running, verifying]

theorem exec_pixelWord_deaf (running : s.held = false) (deaf : (s.link c).state.Deaf) (w : Word) :
    exec (.pixelWord c w) s = .next (takeHead s) := by
  rcases deaf with h | h | h <;> simp only [exec, execPixelWord, event_running running, h]

theorem exec_pixelWord_locked (running : s.held = false) (locked : (s.link c).state = .locked) (w : Word) :
    exec (.pixelWord c w) s = .next (takeHead (s.setLink c
      { s.link c with openLine := (s.link c).openLine.map (fun o => o.feed w) })) := by
  simp only [exec, execPixelWord, event_running running, locked]

/-- The four marker commands, each a marker of its number of link words. -/
theorem exec_frameStart (running : s.held = false) (n : Byte) (o : Tap) : exec (.frameStart c n o) s =
    .next (takeHead (s.marker c 2 (fun s => (s.setOffered c o).takeFrameStart c n))) := by
  simp only [exec, execFrameStart, event_running running]

theorem exec_lineStart (running : s.held = false) (w : Word) : exec (.lineStart c w) s =
    .next (takeHead (s.marker c 2 (fun s => s.whileReceiving c (fun k s => s.takeLineStart c k w.toNat)))) := by
  simp only [exec, execLineStart, event_running running]

theorem exec_lineEnd (running : s.held = false) (w : Word) : exec (.lineEnd c w) s =
    .next (takeHead (s.marker c 2 (fun s => s.whileReceiving c (fun k s => s.takeLineEnd c k w)))) := by
  simp only [exec, execLineEnd, event_running running]

theorem exec_frameEnd (running : s.held = false) (o : Tap) : exec (.frameEnd c o) s =
    .next (takeHead (s.marker c 1 (fun s => (s.setOffered c o).takeFrameEnd c))) := by
  simp only [exec, execFrameEnd, event_running running]

end Sys2Proof.Machine

open Sys2Proof Sys2Proof.Machine

/-- Settles O16, from what a marker and each other word does in VERIFY and in the states that discard. -/
theorem wordsCountedInVerifyAlone : Obligations.WordsCountedInVerifyAlone := by
  unfold Obligations.WordsCountedInVerifyAlone
  intro s c w b o running
  refine ⟨fun verifying => ?_, fun deaf => ?_⟩
  · have marked := State.marker_verify verifying
    refine ⟨exec_wordClock_verify running verifying, exec_pixelWord_verify running verifying w, ?_, ?_, ?_, ?_⟩
    · rw [exec_frameStart running, marked]; rfl
    · rw [exec_lineStart running, marked]; rfl
    · rw [exec_lineEnd running, marked]; rfl
    · rw [exec_frameEnd running, marked]; rfl
  · have marked := State.marker_deaf (s := s) (c := c) deaf
    refine ⟨exec_wordClock_deaf running deaf, exec_pixelWord_deaf running deaf w, ?_, ?_, ?_, ?_⟩
    · rw [exec_frameStart running, marked]
    · rw [exec_lineStart running, marked]
    · rw [exec_lineEnd running, marked]
    · rw [exec_frameEnd running, marked]

/-- Settles O14: with no line open the tap update at REFERENCE_LOCK moves the tap alone, and a gate passes exactly within its
tolerance. -/
theorem linkTraining : Obligations.LinkTraining := by
  unfold Obligations.LinkTraining
  refine ⟨fun s c offered running => ⟨fun acquiring noLine => ?_, fun elsewhere => ?_⟩,
    fun s c running => ⟨fun verifying expired low high => ?_, fun failed expired => ?_⟩⟩
  · have offeredNoLine : Link.openLine { s.link c with offered := offered } = none := noLine
    rw [exec_referenceLock running acquiring, Link.applyUpdate_of_no_line offeredNoLine]
    rfl
  · exact exec_referenceLock_elsewhere running elsewhere offered
  · exact exec_gateEnd_pass running verifying expired (Link.gatePasses_iff.mpr ⟨low, high⟩)
  · exact exec_backoffEnd running failed expired

/-- Settles O15: each of the three causes is one failed attempt, and it retries below the fourth. -/
theorem failedAttempt : Obligations.FailedAttempt := by
  unfold Obligations.FailedAttempt
  intro s t c running below fourth
  have attempt : t = s.failAttempt c := by
    rcases Nat.lt_or_ge ((s.link c).attempts + 1) 4 with h | h
    · rw [below h, State.failAttempt_below h]
      rfl
    · rw [fourth h, State.failAttempt_fourth h]
      rfl
  subst attempt
  refine ⟨exec_acquireTimeout running, fun verifying expired outside => ?_, exec_referenceUnlock_verify running⟩
  have fails : ¬(s.link c).gatePasses = true := by
    rw [Link.gatePasses_iff]
    omega
  exact exec_gateEnd_fail running verifying expired fails

end

section
/-! Camera links: leaving LOCKED, link-down, LINK_RESET and the other camera commands. -/

namespace Sys2Proof.Machine

variable {s : State} {c : CamId}

theorem Engine.runs_eq (e : Engine) (c : CamId) : e.runs c = e.running.any (fun j => decide (j.job.cam = c)) := by
  unfold Engine.runs
  cases e.running <;> rfl

/-! ### Link-down and leaving LOCKED (R9, R10, R63, R82, R102) -/

/-- Link-down at its three owners: the FILLING slot is freed and counted, the reference and the screen's measure go. -/
theorem State.linkDown_eq (s : State) (c : CamId) : s.linkDown c = { s with
    rings := (s.ring c).filling?.elim s.rings (fun k => s.rings.set c { s.ring c with
      slots := (s.ring c).slots.set k { s.slot c k with state := .free, record := none }
      order := (s.ring c).order.filter (· ≠ k)
      aborted := bump (s.ring c).aborted })
    contexts := s.contexts.set c { s.context c with
      reference := none
      refLost := (s.context c).refLost || s.engine.running.any (fun j => j.job.cam = c) }
    screens := s.screens.set c { s.screen c with clearRef := 0, rejectedRun := 0 } } := by
  rw [← Engine.runs_eq]
  unfold State.linkDown State.storeLinkDown
  cases (s.ring c).filling? <;> rfl

@[simp] theorem State.linkDown_links (s : State) (c : CamId) : (s.linkDown c).links = s.links := by
  rw [State.linkDown_eq]

@[simp] theorem State.linkDown_timebase (s : State) (c : CamId) : (s.linkDown c).timebase = s.timebase := by
  rw [State.linkDown_eq]

/-- The way out of LOCKED: the loss counted and announced, link-down, and ACQUIRE with attempts 0. -/
theorem State.leaveLocked_eq (s : State) (c : CamId) : s.leaveLocked c = { s.linkDown c with
    links := s.links.set c { s.link c with
      state := .acquire, attempts := 0, timerStart := s.timebase, refLocked := false, updatePending := false
      progress := .none, openLine := none, lossCount := bump (s.link c).lossCount }
    mi := s.mi.place (.faultNotice .linkLost c.num (bump (s.link c).lossCount)) } := by
  unfold State.leaveLocked
  dsimp only
  rw [State.linkDown_eq, State.linkDown_eq s]
  simp only [State.setLink, State.notice, State.ask, State.setMi, State.link, PerCam.set_set, PerCam.get_set, if_true]
  rfl

/-! ### LINK_RESET, by the link's state (R11) -/

theorem State.linkReset_locked (h : (s.link c).state = .locked) : s.linkReset c = s.leaveLocked c := by
  simp only [State.linkReset, h]

theorem State.linkReset_down (h : (s.link c).state = .down) : s.linkReset c = s := by
  simp only [State.linkReset, h]

theorem State.linkReset_training
    (h : (s.link c).state = .acquire ∨ (s.link c).state = .verify ∨ (s.link c).state = .failed) :
    s.linkReset c = s.setLink c ((s.link c).acquire 0 s.timebase) := by
  rcases h with h | h | h <;> simp only [State.linkReset, h]

/-! ### Camera commands (R190) -/

/-- A message with one bit alone does that bit's work. -/
theorem cameraCommands_bit0 (c : CamId) (s : State) :
    cameraCommands c (0 ||| BitVec.twoPow 16 0) s = s.linkReset c := rfl
theorem cameraCommands_bit1 (c : CamId) (s : State) :
    cameraCommands c (0 ||| BitVec.twoPow 16 1) s = s.refRefresh c := rfl
theorem cameraCommands_bit2 (c : CamId) (s : State) :
    cameraCommands c (0 ||| BitVec.twoPow 16 2) s = s.clearTable c := rfl
theorem cameraCommands_bit3 (c : CamId) (s : State) :
    cameraCommands c (0 ||| BitVec.twoPow 16 3) s = s.forceTapUpdate c := rfl
theorem cameraCommands_bit4 (c : CamId) (s : State) :
    cameraCommands c (0 ||| BitVec.twoPow 16 4) s = s.clearCameraCounts c := rfl

section
variable {node : Byte} {k : ReqSlot}

/-- The rows that are camera commands, from a known node: the bit's work, and the answer OK. -/
theorem exec_linkReset (h : s.Hears node k) (c : CamId) : exec (.linkReset node c 0) s =
    .next (takeHead (((s.heard k).linkReset c).ask (.requestResult node (byteOf c.num 0) .command .ok))) :=
  (bitCommand_known h (.camera c) 0 0 false).trans (by rw [obey, cameraCommands_bit0]; rfl)
theorem exec_refRefresh (h : s.Hears node k) (c : CamId) : exec (.refRefresh node c 0) s =
    .next (takeHead (((s.heard k).refRefresh c).ask (.requestResult node (byteOf c.num 0) .command .ok))) :=
  (bitCommand_known h (.camera c) 0 1 false).trans (by rw [obey, cameraCommands_bit1]; rfl)
theorem exec_tableClear (h : s.Hears node k) (c : CamId) : exec (.tableClear node c 0) s =
    .next (takeHead (((s.heard k).clearTable c).ask (.requestResult node (byteOf c.num 0) .command .ok))) :=
  (bitCommand_known h (.camera c) 0 2 false).trans (by rw [obey, cameraCommands_bit2]; rfl)
theorem exec_clearCounts (h : s.Hears node k) (c : CamId) : exec (.clearCounts node c 0) s =
    .next (takeHead (((s.heard k).clearCameraCounts c).ask (.requestResult node (byteOf c.num 0) .command .ok))) :=
  (bitCommand_known h (.camera c) 0 4 false).trans (by rw [obey, cameraCommands_bit4]; rfl)

/-- A COMMAND message with which the reference offers a tap. -/
theorem command_known_offered (h : s.Hears node k) (t : Target) (bits : Word) (c : CamId) (offered : Tap) :
    event (onReceipt (fun u => commandMessage node t.byte bits false (u.setOffered c offered))) s =
      .next (takeHead (obey node t bits false ((s.heard k).setOffered c offered))) := by
  unfold commandMessage
  rw [message_known_noting h (·.setOffered c offered) (fun _ => rfl), targetOf_byte]
  rfl

/-- FORCE_TAP_UPDATE first takes in the tap that the reference offers. -/
theorem exec_forceTapUpdate (h : s.Hears node k) (c : CamId) (offered : Tap) :
    exec (.forceTapUpdate node c 0 offered) s =
      .next (takeHead ((((s.heard k).setOffered c offered).forceTapUpdate c).ask
        (.requestResult node (byteOf c.num 0) .command .ok))) :=
  (command_known_offered h (.camera c) _ c offered).trans (by rw [obey, cameraCommands_bit3]; rfl)

end

end Sys2Proof.Machine

open Sys2Proof Sys2Proof.Machine

/-- Settles O17: the three causes take a LOCKED link the same way out, and LINK_RESET acts by the link's state. -/
theorem leavingLockedAndLinkReset : Obligations.LeavingLockedAndLinkReset := by
  unfold Obligations.LeavingLockedAndLinkReset
  refine ⟨fun u t c locked left => ?_, fun s node k c hears => ⟨fun training => ?_, fun down => ?_⟩⟩
  · have out : t = u.leaveLocked c := by rw [left, State.leaveLocked_eq, State.linkDown_eq]
    rw [out]
    refine ⟨fun running => exec_signalLoss running locked, fun running => exec_referenceUnlock_locked running locked,
      fun s node k hears heard => ?_⟩
    rw [exec_linkReset hears, ← heard, State.linkReset_locked locked]
  · rw [exec_linkReset hears, State.linkReset_training (s := s.heard k) training]
    rfl
  · rw [exec_linkReset hears, State.linkReset_down (s := s.heard k) down]

/-- Settles O31: each row does its bit's work, and a message with several bits does theirs one after the other. -/
theorem cameraCommandsAct : Obligations.CameraCommandsAct := by
  unfold Obligations.CameraCommandsAct
  intro s node k c bits hears
  refine ⟨exec_refRefresh hears c, exec_tableClear hears c, exec_clearCounts hears c, ?_⟩
  exact command_known hears (.camera c) bits false

end

section
/-! Camera links: the writes of LINK_ENABLE, TAP_OVERRIDE and TAP_GATE, and FORCE_TAP_UPDATE. -/

namespace Sys2Proof.Machine

variable {s : State} {c : CamId} {v : Int}

theorem clamp_of_le_lo {lo hi : Int} (h : v ≤ lo) (range : lo ≤ hi) : clamp v lo hi = lo := by
  unfold clamp
  split
  · rfl
  · rw [if_neg (by omega)]
    omega

theorem clamp_of_hi_le {lo hi : Int} (h : hi ≤ v) (range : lo ≤ hi) : clamp v lo hi = hi := by
  unfold clamp
  rw [if_neg (by omega)]
  split
  · rfl
  · omega

theorem State.setLink_setLink (s : State) (c : CamId) (l m : Link) : (s.setLink c l).setLink c m = s.setLink c m := by
  simp [State.setLink]

/-! ### LINK_ENABLE (R4) -/

theorem State.takes_linkEnable (s : State) (c : CamId) : s.Takes (.cam c .linkEnable) := ⟨fun h => absurd (h : false = true) Bool.false_ne_true, rfl⟩

theorem Params.fit_linkEnable_low (p : Params) (c : CamId) (h : v ≤ 0) : p.fit (.cam c .linkEnable) v = 0 :=
  clamp_of_le_lo h (show (0 : Int) ≤ 1 by decide)

theorem Params.fit_linkEnable_high (p : Params) (c : CamId) (h : 1 ≤ v) : p.fit (.cam c .linkEnable) v = 1 :=
  clamp_of_hi_le h (show (0 : Int) ≤ 1 by decide)

theorem Params.read_linkEnable (p : Params) (c : CamId) :
    p.read (.cam c .linkEnable) = if (p.cams.get c).linkEnable then 1 else 0 := rfl

/-- What a write of LINK_ENABLE sets off: nothing unless the value changes. -/
theorem State.storeParam_linkEnable (s : State) (c : CamId) (v : Int) : s.storeParam (.cam c .linkEnable) v =
    if s.params.read (.cam c .linkEnable) = s.params.fit (.cam c .linkEnable) v then s.stored (.cam c .linkEnable) v
    else (s.stored (.cam c .linkEnable) v).linkEnableChanged c
      (decide (s.params.fit (.cam c .linkEnable) v = 1)) := rfl

theorem State.storeParam_linkEnable_on_again (held : (s.camParams c).linkEnable = true) (h : 1 ≤ v) :
    s.storeParam (.cam c .linkEnable) v = s.stored (.cam c .linkEnable) v := by
  unfold State.camParams at held
  rw [State.storeParam_linkEnable, Params.read_linkEnable, held, Params.fit_linkEnable_high _ c h, if_pos rfl,
    if_pos rfl]

theorem State.storeParam_linkEnable_off_again (held : (s.camParams c).linkEnable = false) (h : v ≤ 0) :
    s.storeParam (.cam c .linkEnable) v = s.stored (.cam c .linkEnable) v := by
  unfold State.camParams at held
  rw [State.storeParam_linkEnable, Params.read_linkEnable, held, Params.fit_linkEnable_low _ c h,
    if_neg Bool.false_ne_true, if_pos rfl]

theorem State.storeParam_linkEnable_on (held : (s.camParams c).linkEnable = false) (h : 1 ≤ v) :
    s.storeParam (.cam c .linkEnable) v = (s.stored (.cam c .linkEnable) v).linkEnableChanged c true := by
  unfold State.camParams at held
  rw [State.storeParam_linkEnable, Params.read_linkEnable, held, Params.fit_linkEnable_high _ c h, if_neg (by decide)]
  rfl

theorem State.storeParam_linkEnable_off (held : (s.camParams c).linkEnable = true) (h : v ≤ 0) :
    s.storeParam (.cam c .linkEnable) v = (s.stored (.cam c .linkEnable) v).linkEnableChanged c false := by
  unfold State.camParams at held
  rw [State.storeParam_linkEnable, Params.read_linkEnable, held, Params.fit_linkEnable_low _ c h, if_pos rfl,
    if_neg (by decide)]
  rfl

theorem State.linkEnableChanged_on (down : (s.link c).state = .down) :
    s.linkEnableChanged c true = s.setLink c ((s.link c).acquire 0 s.timebase) := by
  simp only [State.linkEnableChanged, if_true, down]

theorem State.linkEnableChanged_off (unlocked : (s.link c).state ≠ .locked) :
    s.linkEnableChanged c false = s.setLink c (s.link c).shutDown := by
  simp only [State.linkEnableChanged, Bool.false_eq_true, if_false, unlocked]

theorem State.linkEnableChanged_off_locked (locked : (s.link c).state = .locked) :
    s.linkEnableChanged c false = (s.linkDown c).setLink c (s.link c).shutDown := by
  simp only [State.linkEnableChanged, Bool.false_eq_true, if_false, locked, if_true]
  simp only [State.link, State.linkDown_links]

/-- A write of LINK_ENABLE by a known node: what it sets off, and the reply. -/
theorem exec_linkEnable {node : Byte} {k : ReqSlot} (h : s.Hears node k) (c : CamId) (value : BitVec 32) :
    exec (.linkEnable node c value) s = .next (takeHead (((s.heard k).storeParam (.cam c .linkEnable)
      value.toInt).replied (s.heard k) node (.cam c .linkEnable) value.toInt)) :=
  param_known h (State.takes_linkEnable s c) value

/-! ### Tap updates (R13–R15) -/

theorem Link.updateDue_ungated {l : Link} {p : CamParams} (h : p.tapGate = false) :
    l.updateDue p = l.applyUpdate p.tapOverride := by
  simp only [Link.updateDue, h, Bool.false_eq_true, if_false]

theorem Link.updateDue_gated {l : Link} {p : CamParams} (h : p.tapGate = true) :
    l.updateDue p = { l with updatePending := true } := by
  simp only [Link.updateDue, h, if_true]

theorem State.forceTapUpdate_locked (locked : (s.link c).state = .locked) :
    s.forceTapUpdate c = s.setLink c ((s.link c).updateDue (s.camParams c)) := if_pos locked

theorem State.forceTapUpdate_unlocked (unlocked : (s.link c).state ≠ .locked) : s.forceTapUpdate c = s := if_neg unlocked

theorem Link.applyPending_due {l : Link} (locked : l.state = .locked) (pending : l.updatePending = true) (p : CamParams) :
    l.applyPending p = { l.applyUpdate p.tapOverride with updatePending := false } := if_pos ⟨locked, pending⟩

theorem Link.applyPending_idle {l : Link} (h : ¬(l.state = .locked ∧ l.updatePending = true)) (p : CamParams) :
    l.applyPending p = l := if_neg h

theorem State.setOffered_link (s : State) (c : CamId) (o : Tap) :
    (s.setOffered c o).link c = { s.link c with offered := o } := by
  rw [State.setOffered, State.setLink_link, if_pos rfl]

theorem State.setOffered_setLink (s : State) (c : CamId) (o : Tap) (l : Link) :
    (s.setOffered c o).setLink c l = s.setLink c l := State.setLink_setLink s c _ l

@[simp] theorem State.setOffered_camParams (s : State) (c d : CamId) (o : Tap) :
    (s.setOffered c o).camParams d = s.camParams d := rfl

/-- An update that falls due while the reference offers a tap, by the link's state and TAP_GATE (R15). -/
theorem State.offered_forceTapUpdate_ungated (locked : (s.link c).state = .locked)
    (ungated : (s.camParams c).tapGate = false) (o : Tap) : (s.setOffered c o).forceTapUpdate c =
      s.setLink c (Link.applyUpdate { s.link c with offered := o } (s.camParams c).tapOverride) := by
  rw [State.forceTapUpdate_locked (by rw [State.setOffered_link]; exact locked), State.setOffered_camParams,
    Link.updateDue_ungated ungated, State.setOffered_setLink, State.setOffered_link]

theorem State.offered_forceTapUpdate_gated (locked : (s.link c).state = .locked)
    (gated : (s.camParams c).tapGate = true) (o : Tap) : (s.setOffered c o).forceTapUpdate c =
      s.setLink c { s.link c with offered := o, updatePending := true } := by
  rw [State.forceTapUpdate_locked (by rw [State.setOffered_link]; exact locked), State.setOffered_camParams,
    Link.updateDue_gated gated, State.setOffered_setLink, State.setOffered_link]

theorem State.offered_forceTapUpdate_unlocked (unlocked : (s.link c).state ≠ .locked) (o : Tap) :
    (s.setOffered c o).forceTapUpdate c = s.setLink c { s.link c with offered := o } :=
  State.forceTapUpdate_unlocked (by rw [State.setOffered_link]; exact unlocked)

/-- A pending update applied while the reference offers a tap. -/
theorem State.offered_applyPendingTap (locked : (s.link c).state = .locked) (pending : (s.link c).updatePending = true)
    (o : Tap) : (s.setOffered c o).applyPendingTap c = s.setLink c
      { Link.applyUpdate { s.link c with offered := o } (s.camParams c).tapOverride with updatePending := false } := by
  unfold State.applyPendingTap
  rw [State.setOffered_setLink, State.setOffered_link, State.setOffered_camParams,
    Link.applyPending_due (l := { s.link c with offered := o }) locked pending]

theorem State.offered_applyPendingTap_idle (h : ¬((s.link c).state = .locked ∧ (s.link c).updatePending = true))
    (o : Tap) : (s.setOffered c o).applyPendingTap c = s.setLink c { s.link c with offered := o } := by
  unfold State.applyPendingTap
  rw [State.setOffered_setLink, State.setOffered_link,
    Link.applyPending_idle (l := { s.link c with offered := o }) h]

/-- A PARAM WRITE row with which the reference offers a tap, from a known node whose write is taken. -/
theorem param_known_offered {node : Byte} {k : ReqSlot} (h : s.Hears node k) {id : ParamId} (ht : s.Takes id)
    (value : BitVec 32) (c : CamId) (offered : Tap) :
    event (onReceipt (fun u => paramMessage node id value (u.setOffered c offered))) s =
      .next (takeHead ((((s.heard k).setOffered c offered).storeParam id value.toInt).replied (s.heard k) node id
        value.toInt)) := by
  have ht' : ((s.heard k).setOffered c offered).Takes id := ht
  unfold paramMessage
  rw [message_known_noting h (·.setOffered c offered) (fun _ => rfl)]
  exact congrArg (fun t => Host.Outcome.next (takeHead t)) (State.writeParam_taken ht' node value.toInt)

theorem State.takes_tapOverride (s : State) (c : CamId) (setup : s.setup = true) : s.Takes (.cam c .tapOverride) :=
  ⟨fun _ => setup, rfl⟩

theorem State.takes_tapGate (s : State) (c : CamId) : s.Takes (.cam c .tapGate) := ⟨fun h => absurd (h : false = true) Bool.false_ne_true, rfl⟩

/-- A stored write of TAP_OVERRIDE makes an update due (R15). -/
theorem State.storeParam_tapOverride (s : State) (c : CamId) (v : Int) :
    s.storeParam (.cam c .tapOverride) v = (s.stored (.cam c .tapOverride) v).forceTapUpdate c := rfl

theorem State.stored_tapOverride_camParams (s : State) (c : CamId) (v : Int) :
    (s.stored (.cam c .tapOverride) v).camParams c = { s.camParams c with tapOverride := clamp v (-1) 127 } := by
  unfold State.stored State.camParams Params.write
  rw [PerCam.get_set, if_pos rfl]
  rfl

theorem State.stored_tapGate_tapOverride (s : State) (c : CamId) (v : Int) :
    ((s.stored (.cam c .tapGate) v).camParams c).tapOverride = (s.camParams c).tapOverride := by
  unfold State.stored State.camParams Params.write
  rw [PerCam.get_set, if_pos rfl]
  rfl

/-- A stored write of TAP_GATE from 1 to 0 applies a pending update (R15). -/
theorem State.storeParam_tapGate_cleared (gated : (s.camParams c).tapGate = true) (h : v ≤ 0) :
    s.storeParam (.cam c .tapGate) v = (s.stored (.cam c .tapGate) v).applyPendingTap c := by
  have old : s.params.read (.cam c .tapGate) = 1 := by
    show boolCode (s.camParams c).tapGate = 1
    rw [gated]; rfl
  have new : s.params.fit (.cam c .tapGate) v = 0 :=
    clamp_of_le_lo h (show (0 : Int) ≤ 1 by decide)
  rw [State.storeParam_eq]
  exact if_pos ⟨old, new⟩

/-- Any other write of TAP_GATE is stored alone. -/
theorem State.storeParam_tapGate_kept (h : (s.camParams c).tapGate = false ∨ 1 ≤ v) :
    s.storeParam (.cam c .tapGate) v = s.stored (.cam c .tapGate) v := by
  rw [State.storeParam_eq]
  refine if_neg (fun ⟨old, new⟩ => ?_)
  rcases h with ungated | high
  · have zero : s.params.read (.cam c .tapGate) = 0 := by
      show boolCode (s.camParams c).tapGate = 0
      rw [ungated]; rfl
    omega
  · have one : s.params.fit (.cam c .tapGate) v = 1 :=
      clamp_of_hi_le high (show (0 : Int) ≤ 1 by decide)
    omega

section
variable {node : Byte} {k : ReqSlot}

theorem exec_tapOverride (h : s.Hears node k) (setup : s.setup = true) (c : CamId) (value : BitVec 32) (offered : Tap) :
    exec (.tapOverride node c value offered) s = .next (takeHead ((((s.heard k).setOffered c offered).storeParam
      (.cam c .tapOverride) value.toInt).replied (s.heard k) node (.cam c .tapOverride) value.toInt)) :=
  param_known_offered h (State.takes_tapOverride s c setup) value c offered

theorem exec_tapGate (h : s.Hears node k) (c : CamId) (value : BitVec 32) (offered : Tap) :
    exec (.tapGate node c value offered) s = .next (takeHead ((((s.heard k).setOffered c offered).storeParam
      (.cam c .tapGate) value.toInt).replied (s.heard k) node (.cam c .tapGate) value.toInt)) :=
  param_known_offered h (State.takes_tapGate s c) value c offered

end

end Sys2Proof.Machine

open Sys2Proof Sys2Proof.Machine

/-- Settles O18, by the value held, the value written and the link's state. -/
theorem linkEnableWrite : Obligations.LinkEnableWrite := by
  unfold Obligations.LinkEnableWrite
  intro s node k c value hears
  dsimp only
  have row := exec_linkEnable hears c value
  let stored := (s.heard k).stored (.cam c .linkEnable) value.toInt
  refine ⟨fun on high => ?_, fun off low => ?_, fun off high down => ?_, fun on low unlocked => ?_,
    fun on low locked => ?_⟩
  · rw [row, State.storeParam_linkEnable_on_again (s := s.heard k) on high]
  · rw [row, State.storeParam_linkEnable_off_again (s := s.heard k) off low]
  · rw [row, State.storeParam_linkEnable_on (s := s.heard k) off high, State.linkEnableChanged_on (s := stored) down]
    rfl
  · rw [row, State.storeParam_linkEnable_off (s := s.heard k) on low,
      State.linkEnableChanged_off (s := stored) unlocked]
    rfl
  · rw [row, State.storeParam_linkEnable_off (s := s.heard k) on low,
      State.linkEnableChanged_off_locked (s := stored) locked, State.linkDown_eq]
    rfl

/-- Settles O19, row by row: in LOCKED an update is applied or set pending, elsewhere the offered tap alone is noted. -/
theorem tapUpdates : Obligations.TapUpdates := by
  unfold Obligations.TapUpdates
  intro s node k c offered value hears
  dsimp only
  have forced := exec_forceTapUpdate hears c offered
  have overridden (setup : s.setup = true) := exec_tapOverride hears setup c value offered
  have regated := exec_tapGate hears c value offered
  have commute (id : ParamId) : ((s.heard k).setOffered c offered).stored id value.toInt =
      ((s.heard k).stored id value.toInt).setOffered c offered := rfl
  let v := (s.heard k).stored (.cam c .tapOverride) value.toInt
  let w := (s.heard k).stored (.cam c .tapGate) value.toInt
  have gate : (v.camParams c).tapGate = (s.camParams c).tapGate := by rw [State.stored_tapOverride_camParams]; rfl
  refine ⟨fun locked ungated => ?_, fun locked gated => ?_, fun unlocked => ?_, fun setup locked ungated => ?_,
    fun setup locked gated => ?_, fun setup unlocked => ?_, fun gated low locked pending => ?_, fun kept => ?_⟩
  · rw [forced, State.offered_forceTapUpdate_ungated (s := s.heard k) locked ungated]
    rfl
  · rw [forced, State.offered_forceTapUpdate_gated (s := s.heard k) locked gated]
    rfl
  · rw [forced, State.offered_forceTapUpdate_unlocked (s := s.heard k) unlocked]
    rfl
  · rw [overridden setup, State.storeParam_tapOverride, commute,
      State.offered_forceTapUpdate_ungated (s := v) locked (gate.trans ungated), State.stored_tapOverride_camParams]
    rfl
  · rw [overridden setup, State.storeParam_tapOverride, commute,
      State.offered_forceTapUpdate_gated (s := v) locked (gate.trans gated)]
    rfl
  · rw [overridden setup, State.storeParam_tapOverride, commute,
      State.offered_forceTapUpdate_unlocked (s := v) unlocked]
    rfl
  · rw [regated, State.storeParam_tapGate_cleared (s := (s.heard k).setOffered c offered) gated low, commute,
      State.offered_applyPendingTap (s := w) locked pending, State.stored_tapGate_tapOverride]
    rfl
  · by_cases clears : (s.camParams c).tapGate = true ∧ value.toInt ≤ 0
    · obtain ⟨gated, low⟩ := clears
      have idle : ¬((s.link c).state = .locked ∧ (s.link c).updatePending = true) := by
        rintro ⟨locked, pending⟩
        rcases kept with h | h | h | h
        · exact absurd (h.symm.trans gated) Bool.false_ne_true
        · omega
        · exact h locked
        · exact absurd (h.symm.trans pending) Bool.false_ne_true
      rw [regated, State.storeParam_tapGate_cleared (s := (s.heard k).setOffered c offered) gated low, commute,
        State.offered_applyPendingTap_idle (s := w) idle]
      rfl
    · have stays : (s.camParams c).tapGate = false ∨ 1 ≤ value.toInt := by
        cases gated : (s.camParams c).tapGate
        · exact .inl rfl
        · exact .inr (not_le.mp (fun low => clears ⟨gated, low⟩))
      rw [regated, State.storeParam_tapGate_kept (s := (s.heard k).setOffered c offered) stays]
      rfl

end

section
/-! Lines of a camera link: how one opens, takes its words and settles (R2, R3, R17, R18, R21). -/

namespace Sys2Proof.Machine

variable {s : State} {c : CamId} {k : SlotId}

/-! ### A marker for the frame in progress -/

theorem State.whileReceiving_receiving (h : (s.link c).progress = .receiving k) (f : SlotId → State → State) :
    s.whileReceiving c f = f k s := by
  simp only [State.whileReceiving, h]

theorem State.whileReceiving_idle (h : (s.link c).progress = .none ∨ (s.link c).progress = .discarding)
    (f : SlotId → State → State) : s.whileReceiving c f = s := by
  rcases h with h | h <;> simp only [State.whileReceiving, h]

theorem State.marked_progress (s : State) (c : CamId) : ((s.marked c).link c).progress = (s.link c).progress := by
  rw [State.marked_link]

theorem State.marked_openLine (s : State) (c : CamId) : ((s.marked c).link c).openLine = (s.link c).openLine := by
  rw [State.marked_link]

section
variable (running : s.held = false) (locked : (s.link c).state = .locked)
include running locked

theorem exec_lineStart_receiving (receiving : (s.link c).progress = .receiving k) (w : Word) :
    exec (.lineStart c w) s = .next (takeHead ((s.marked c).takeLineStart c k w.toNat)) := by
  rw [exec_lineStart running, State.marker_locked locked,
    State.whileReceiving_receiving ((s.marked_progress c).trans receiving)]

theorem exec_lineStart_idle (idle : (s.link c).progress = .none ∨ (s.link c).progress = .discarding) (w : Word) :
    exec (.lineStart c w) s = .next (takeHead (s.marked c)) := by
  rw [← State.marked_progress] at idle
  rw [exec_lineStart running, State.marker_locked locked, State.whileReceiving_idle idle]

theorem exec_lineEnd_receiving (receiving : (s.link c).progress = .receiving k) (w : Word) :
    exec (.lineEnd c w) s = .next (takeHead ((s.marked c).takeLineEnd c k w)) := by
  rw [exec_lineEnd running, State.marker_locked locked,
    State.whileReceiving_receiving ((s.marked_progress c).trans receiving)]

theorem exec_lineEnd_idle (idle : (s.link c).progress = .none ∨ (s.link c).progress = .discarding) (w : Word) :
    exec (.lineEnd c w) s = .next (takeHead (s.marked c)) := by
  rw [← State.marked_progress] at idle
  rw [exec_lineEnd running, State.marker_locked locked, State.whileReceiving_idle idle]

end

/-! ### Settling -/

theorem State.settleOpenBad_of_no_line (h : (s.link c).openLine = none) (k : SlotId) : s.settleOpenBad c k = s := by
  simp only [State.settleOpenBad, h]

theorem State.settleOpenBad_of_line (h : (s.link c).openLine ≠ none) (k : SlotId) :
    s.settleOpenBad c k = (s.conceal c k).closeLine c := by
  obtain ⟨o, ho⟩ := Option.ne_none_iff_exists'.mp h
  simp only [State.settleOpenBad, ho]

/-- Concealing one position: the slot takes the concealing row, the link counts it (R18). -/
theorem State.conceal_eq (s : State) (c : CamId) (k : SlotId) : s.conceal c k =
    (s.setSlot c k ((s.slot c k).settle (s.link c).nextPos ((s.slot c k).concealRow (s.link c).lastGood))).setLink c
      { s.link c with nextPos := (s.link c).nextPos + 1, concealed := (s.link c).concealed + 1 } := rfl

theorem State.conceal_link (s : State) (c : CamId) (k : SlotId) : (s.conceal c k).link c =
    { s.link c with nextPos := (s.link c).nextPos + 1, concealed := (s.link c).concealed + 1 } := by
  rw [State.conceal_eq, State.setLink_link, if_pos rfl]

theorem State.concealMany_eq_iterate (s : State) (c : CamId) (k : SlotId) (n : Nat) :
    s.concealMany c k n = (fun w => w.conceal c k)^[n] s := by
  induction n generalizing s with
  | zero => rfl
  | succ n ih => rw [State.concealMany, ih, Function.iterate_succ_apply]

theorem State.concealMany_link (s : State) (c : CamId) (k : SlotId) (n : Nat) : (s.concealMany c k n).link c =
    { s.link c with nextPos := (s.link c).nextPos + n, concealed := (s.link c).concealed + n } := by
  induction n generalizing s with
  | zero => rfl
  | succ n ih =>
    rw [State.concealMany, ih, State.conceal_link]
    simp only [Nat.add_assoc, Nat.add_comm 1 n]

/-! ### A LINE_START, by the number of the line and the next position (R17) -/

section
variable {n : Nat}

theorem State.takeLineStart_full (h : 480 ≤ ((s.settleOpenBad c k).link c).nextPos) :
    s.takeLineStart c k n = s.settleOpenBad c k := by
  simp only [State.takeLineStart, h, if_true]

theorem State.takeLineStart_next (h : ((s.settleOpenBad c k).link c).nextPos < 480)
    (next : n = ((s.settleOpenBad c k).link c).nextPos) :
    s.takeLineStart c k n = (s.settleOpenBad c k).openAt c n false := by
  simp only [State.takeLineStart, Nat.not_le.mpr h, if_false, next, if_true]

theorem State.takeLineStart_later (later : ((s.settleOpenBad c k).link c).nextPos < n) (last : n ≤ 479) :
    s.takeLineStart c k n = ((s.settleOpenBad c k).concealMany c k
      (n - ((s.settleOpenBad c k).link c).nextPos)).openAt c n false := by
  have room : ¬480 ≤ ((s.settleOpenBad c k).link c).nextPos := by omega
  have other : n ≠ ((s.settleOpenBad c k).link c).nextPos := by omega
  simp only [State.takeLineStart, room, if_false, other, later, last, and_self, if_true]

theorem State.takeLineStart_stray (h : ((s.settleOpenBad c k).link c).nextPos < 480)
    (stray : n < ((s.settleOpenBad c k).link c).nextPos ∨ 479 < n) :
    s.takeLineStart c k n = (s.settleOpenBad c k).openAt c n true := by
  have other : n ≠ ((s.settleOpenBad c k).link c).nextPos := by omega
  have notLater : ¬(((s.settleOpenBad c k).link c).nextPos < n ∧ n ≤ 479) := by omega
  simp only [State.takeLineStart, Nat.not_le.mpr h, if_false, other, notLater]

end

/-! ### Words on an open line (R2, R3) -/

theorem OpenLine.feed_skipping {o : OpenLine} (h : o.skipping = true) (w : Word) : o.feed w = o := by
  simp only [OpenLine.feed, h, if_true]

theorem OpenLine.feed_room {o : OpenLine} (h : o.skipping = false) (room : o.count < 800) (w : Word) :
    o.feed w = { o with count := o.count + 1, crc := crcWord o.crc w, buffer := o.buffer ++ [w] } := by
  simp only [OpenLine.feed, h, Bool.false_eq_true, if_false, room, if_true]

theorem OpenLine.feed_full {o : OpenLine} (h : o.skipping = false) (full : 800 ≤ o.count) (w : Word) :
    o.feed w = { o with bad := true } := by
  simp only [OpenLine.feed, h, Bool.false_eq_true, if_false, Nat.not_lt.mpr full]

theorem OpenLine.good_iff {o : OpenLine} {check : Word} {p : Nat} :
    o.good check p = true ↔ o.bad = false ∧ o.count = 800 ∧ o.crc = check ∧ o.number = p := by
  simp [OpenLine.good, and_assoc]

/-- Writing back a link that is as it was changes nothing. -/
theorem State.setLink_self (s : State) (c : CamId) : s.setLink c (s.link c) = s := by
  simp [State.setLink, State.link]

/-! ### The line check (R3) -/

theorem crcPolynomial_getLsbD {i : Nat} (h : i < 16) :
    (0x1021#16).getLsbD i = decide (i = 0 ∨ i = 5 ∨ i = 12) := by
  interval_cases i <;> rfl

/-- One bit into the CRC: the register shifted, and the generator x^16 + x^12 + x^5 + 1 where the bit shifted out differs
from the one fed. -/
theorem crcBit_getLsbD (crc : Word) (bit : Bool) {i : Nat} (h : i < 16) : (crcBit crc bit).getLsbD i =
    ((decide (0 < i) && crc.getLsbD (i - 1)) ^^ (decide (i = 0 ∨ i = 5 ∨ i = 12) && (crc.getLsbD 15 ^^ bit))) := by
  have shifted : (crc <<< 1).getLsbD i = (decide (0 < i) && crc.getLsbD (i - 1)) := by
    rw [BitVec.getLsbD_shiftLeft]
    simp [h, Nat.pos_iff_ne_zero]
  have top : crc.msb = crc.getLsbD 15 := BitVec.msb_eq_getLsbD_last crc
  unfold crcBit
  rw [top, ← crcPolynomial_getLsbD h, ← shifted]
  cases crc.getLsbD 15 <;> cases bit <;> simp [BitVec.getLsbD_xor]

/-- A word goes into the CRC from bit 15 to bit 0. -/
theorem crcWord_eq_foldl (crc w : Word) : crcWord crc w =
    [15, 14, 13, 12, 11, 10, 9, 8, 7, 6, 5, 4, 3, 2, 1, 0].foldl (fun r i => crcBit r (w.getLsbD i)) crc := by
  simp [crcWord, crcByte, highByte, lowByte, BitVec.getLsbD_extractLsb']

/-! ### A LINE_END (R18, R21) -/

theorem State.takeLineEnd_of_no_line (h : (s.link c).openLine = none) (w : Word) : s.takeLineEnd c k w = s := by
  simp only [State.takeLineEnd, h]

theorem State.takeLineEnd_good {o : OpenLine} {w : Word} (h : (s.link c).openLine = some o)
    (good : o.good w (s.link c).nextPos = true) :
    s.takeLineEnd c k w = (s.settleGood c k o.buffer).closeLine c := by
  simp only [State.takeLineEnd, h, good, if_true]

theorem State.takeLineEnd_bad {o : OpenLine} {w : Word} (h : (s.link c).openLine = some o)
    (bad : ¬o.good w (s.link c).nextPos = true) : s.takeLineEnd c k w = (s.conceal c k).closeLine c := by
  simp only [State.takeLineEnd, h, bad, Bool.false_eq_true, if_false]

theorem exec_lineEnd_of_no_line (running : s.held = false) (locked : (s.link c).state = .locked)
    (noLine : (s.link c).openLine = none) (w : Word) : exec (.lineEnd c w) s = .next (takeHead (s.marked c)) := by
  cases progress : (s.link c).progress with
  | none => exact exec_lineEnd_idle running locked (.inl progress) w
  | discarding => exact exec_lineEnd_idle running locked (.inr progress) w
  | receiving j =>
    rw [exec_lineEnd_receiving running locked progress,
      State.takeLineEnd_of_no_line ((s.marked_openLine c).trans noLine)]

/-- The concealing row: black before the first good line, a copy of the last good one afterwards. -/
theorem Slot.concealRow_eq (j : Slot) (g : Option Nat) :
    j.concealRow g = g.elim (List.replicate 800 0x1080#16) (fun g => RowStore.read j.pixels 800 g) := by
  cases g <;> rfl

/-- A slot settled and its link moved on at a marker, and then the line closed. -/
theorem State.marked_settled_closeLine (s : State) (c : CamId) (k : SlotId) (j : Slot) (l : Link) :
    (((s.marked c).setSlot c k j).setLink c l).closeLine c = (s.setSlot c k j).setLink c { l with openLine := none } := by
  have commute : (s.marked c).setSlot c k j = (s.setSlot c k j).marked c := rfl
  unfold State.closeLine
  rw [commute, State.marked, State.setLink_setLink, State.setLink_setLink, State.setLink_link, if_pos rfl]

end Sys2Proof.Machine

open Sys2Proof Sys2Proof.Machine

/-- Settles O23: an open line is settled as bad, and then the four cases of a line's number against the next position. -/
theorem lineStartOpens : Obligations.LineStartOpens := by
  unfold Obligations.LineStartOpens
  intro s c k number running locked u v
  have settled : (s.marked c).settleOpenBad c k = v := by
    by_cases line : (s.link c).openLine = none
    · exact (State.settleOpenBad_of_no_line ((s.marked_openLine c).trans line) k).trans (if_pos line).symm
    · exact (State.settleOpenBad_of_line (fun h => line ((s.marked_openLine c).symm.trans h)) k).trans (if_neg line).symm
  clear_value v
  subst settled
  dsimp only
  refine ⟨fun receiving => ?_, exec_lineStart_idle running locked (w := number)⟩
  rw [exec_lineStart_receiving running locked receiving]
  refine ⟨fun full => ?_, fun room next => ?_, fun room stray => ?_, fun later last => ?_⟩
  · rw [State.takeLineStart_full full]
  · rw [State.takeLineStart_next room next]
    rfl
  · rw [State.takeLineStart_stray room stray]
    rfl
  · have concealed : number.toNat = (((s.marked c).settleOpenBad c k).link c).nextPos +
        (number.toNat - (((s.marked c).settleOpenBad c k).link c).nextPos) := by omega
    rw [State.takeLineStart_later later last, State.openAt, State.concealMany_link, ← State.concealMany_eq_iterate]
    dsimp only
    rw [← concealed]
    rfl

/-- Settles O24: each word by the line it finds open, a LINE_END by whether the line is good; the CRC bit by bit; and a row
read after a write. -/
theorem linesSettle : Obligations.LinesSettle := by
  unfold Obligations.LinesSettle
  refine ⟨fun s c k o word check running locked => ?_, fun crc w bit => ⟨fun i h => crcBit_getLsbD crc bit h,
    crcWord_eq_foldl crc w, rfl⟩, fun m y z row => RowStore.read_write y z row⟩
  dsimp only
  refine ⟨fun line noSkip room => ?_, fun line noSkip full => ?_, fun line => ?_, fun line skip => ?_,
    fun noLine => ⟨?_, ?_⟩, fun receiving line good => ?_, fun receiving line bad => ?_, fun idle => ?_⟩
  · rw [exec_pixelWord_locked running locked, line, Option.map_some, OpenLine.feed_room noSkip room]
  · rw [exec_pixelWord_locked running locked, line, Option.map_some, OpenLine.feed_full noSkip full]
  · rw [exec_wordClock_locked running locked, State.skipWords, line]
    rfl
  · rw [exec_pixelWord_locked running locked, line, Option.map_some, OpenLine.feed_skipping skip, ← line,
      State.setLink_self]
  · rw [exec_pixelWord_locked running locked, noLine, Option.map_none, ← noLine, State.setLink_self]
  · rw [exec_wordClock_locked running locked, State.skipWords, noLine, Option.map_none, ← noLine, State.setLink_self]
  · have good' : o.good check ((s.marked c).link c).nextPos = true := by
      rw [State.marked_link]
      exact OpenLine.good_iff.mpr good
    rw [exec_lineEnd_receiving running locked receiving,
      State.takeLineEnd_good ((s.marked_openLine c).trans line) good', State.settleGood,
      State.marked_settled_closeLine, State.marked_link]
    rfl
  · have bad' : ¬o.good check ((s.marked c).link c).nextPos = true := by
      rw [State.marked_link]
      exact fun h => bad (OpenLine.good_iff.mp h)
    rw [exec_lineEnd_receiving running locked receiving,
      State.takeLineEnd_bad ((s.marked_openLine c).trans line) bad', State.conceal_eq, State.marked_settled_closeLine,
      State.marked_link, Slot.concealRow_eq]
    rfl
  · rcases idle with noLine | elsewhere
    · exact exec_lineEnd_of_no_line running locked noLine check
    · exact exec_lineEnd_idle running locked elsewhere check

end

section
/-! Frames of a camera link: FRAME_START with no frame being received (R15, R16, R45, R49, R52–R56). -/

namespace Sys2Proof.Machine

variable {s : State} {c : CamId} {k : SlotId}

/-! ### The marker of a frame -/

/-- The state in which a FRAME_START or FRAME_END is taken in LOCKED: the signal-loss timer has restarted, and the reference
offers a tap. -/
def State.frameMarked (s : State) (c : CamId) (o : Tap) : State :=
  s.setLink c { s.link c with timerStart := s.timebase, offered := o }

theorem State.setOffered_marked (s : State) (c : CamId) (o : Tap) : (s.marked c).setOffered c o = s.frameMarked c o := by
  rw [State.setOffered, State.marked_link, State.marked, State.setLink_setLink, State.frameMarked]

theorem State.frameMarked_link (s : State) (c : CamId) (o : Tap) :
    (s.frameMarked c o).link c = { s.link c with timerStart := s.timebase, offered := o } := by
  rw [State.frameMarked, State.setLink_link, if_pos rfl]

theorem State.frameMarked_links (s : State) (c : CamId) (o : Tap) : (s.frameMarked c o).links =
    s.links.set c { s.link c with timerStart := s.timebase, offered := o } := rfl

theorem exec_frameStart_locked (running : s.held = false) (locked : (s.link c).state = .locked) (n : Byte) (o : Tap) :
    exec (.frameStart c n o) s = .next (takeHead ((s.frameMarked c o).takeFrameStart c n)) := by
  rw [exec_frameStart running, State.marker_locked locked, State.setOffered_marked]

theorem exec_frameEnd_locked (running : s.held = false) (locked : (s.link c).state = .locked) (o : Tap) :
    exec (.frameEnd c o) s = .next (takeHead ((s.frameMarked c o).takeFrameEnd c)) := by
  rw [exec_frameEnd running, State.marker_locked locked, State.setOffered_marked]

theorem State.takeFrameStart_idle (h : (s.link c).progress = .none ∨ (s.link c).progress = .discarding) (n : Byte) :
    s.takeFrameStart c n = s.beginFrame c n := by
  rcases h with h | h <;> simp only [State.takeFrameStart, h]

/-! ### The slot a frame start gets (R53–R55) -/

/-- The slots numbered below one stand before it. -/
theorem SlotId.all_split (k : SlotId) : ∃ lower upper, SlotId.all = lower ++ k :: upper ∧ ∀ j ∈ lower, j.num < k.num := by
  cases k
  · exact ⟨[], _, rfl, by decide⟩
  · exact ⟨[.s0], _, rfl, by decide⟩
  · exact ⟨[.s0, .s1], _, rfl, by decide⟩
  · exact ⟨[.s0, .s1, .s2], _, rfl, by decide⟩
  · exact ⟨[.s0, .s1, .s2, .s3], _, rfl, by decide⟩
  · exact ⟨[.s0, .s1, .s2, .s3, .s4], _, rfl, by decide⟩

theorem Ring.free?_eq_some {r : Ring} (free : (r.slots.get k).state = .free)
    (lowest : ∀ j : SlotId, j.num < k.num → (r.slots.get j).state ≠ .free) : r.free? = some k := by
  obtain ⟨lower, upper, split, below⟩ := SlotId.all_split k
  rw [Ring.free?, List.find?_eq_some_iff_append]
  exact ⟨decide_eq_true free, lower, upper, split, fun j hj => by simpa using lowest j (below j hj)⟩

theorem Ring.free?_eq_none {r : Ring} (h : ∀ j : SlotId, (r.slots.get j).state ≠ .free) : r.free? = none := by
  rw [Ring.free?, List.find?_eq_none]
  exact fun j _ => by simpa using h j

/-- A slot that may be reclaimed: READY, unpinned and not the newest READY one (R54). -/
def Ring.Reclaimable (r : Ring) (k : SlotId) : Prop :=
  (r.slots.get k).state = .ready ∧ (r.slots.get k).pins = 0 ∧ r.newestReady? ≠ some k

theorem Ring.reclaim?_eq_some {r : Ring} {older newer : List SlotId} (order : r.order = older ++ k :: newer)
    (passed : ∀ j ∈ older, ¬r.Reclaimable j) (reclaimable : r.Reclaimable k) : r.reclaim? = some k := by
  rw [Ring.reclaim?, List.find?_eq_some_iff_append]
  refine ⟨by simpa [Ring.Reclaimable, and_assoc] using reclaimable, older, newer, order, fun j hj => ?_⟩
  rw [Bool.not_eq_true', ← Bool.not_eq_true]
  simpa [Ring.Reclaimable, and_assoc] using passed j hj

theorem Ring.reclaim?_eq_none {r : Ring} (h : ∀ j ∈ r.order, ¬r.Reclaimable j) : r.reclaim? = none := by
  rw [Ring.reclaim?, List.find?_eq_none]
  exact fun j hj => by simpa [Ring.Reclaimable, and_assoc] using h j hj

theorem Ring.allocate?_free {r : Ring} (h : r.free? = some k) : r.allocate? = some k := by
  simp only [Ring.allocate?, h]

theorem Ring.allocate?_reclaim {r : Ring} (h : r.free? = none) : r.allocate? = r.reclaim? := by
  simp only [Ring.allocate?, h]

/-! ### The scheduled update (R15) -/

/-- With no line open the schedule counts the frame start, and at its turn moves the tap or sets the update pending. -/
theorem Link.scheduleUpdate_of_no_line {l : Link} (h : l.openLine = none) (p : CamParams) :
    l.scheduleUpdate p = { l with
      framesSinceUpdate := if p.tapUpdateFrames ≤ l.framesSinceUpdate + 1 then 0 else l.framesSinceUpdate + 1
      updatePending := l.updatePending || (decide (p.tapUpdateFrames ≤ l.framesSinceUpdate + 1) && p.tapGate)
      tap := if p.tapUpdateFrames ≤ l.framesSinceUpdate + 1 ∧ p.tapGate = false then l.updateTap p.tapOverride
        else l.tap } := by
  unfold Link.scheduleUpdate
  by_cases turn : p.tapUpdateFrames ≤ l.framesSinceUpdate + 1
  · cases gate : p.tapGate
    · have noLine : Link.openLine { l with framesSinceUpdate := 0 } = none := h
      rw [if_pos turn, Link.updateDue_ungated gate, Link.applyUpdate_of_no_line noLine]
      simp [turn, Link.updateTap]
    · rw [if_pos turn, Link.updateDue_gated gate]
      simp [turn]
  · rw [if_neg turn]
    simp [turn]

/-! ### The frame that begins (R16, R52–R56) -/

/-- The record a frame start of camera `c` begins. -/
def State.recordBegun (s : State) (c : CamId) : Record :=
  .begun c (s.ring c).counted.seqCounter s.timebase (s.frameSnapshot c)

theorem State.beginFrame_filling (h : (s.ring c).allocate? = some k) (n : Byte) : s.beginFrame c n = { s with
    links := s.links.set c
      ((Link.receive { s.link c with lastFrameCounter := n } k).scheduleUpdate (s.camParams c))
    rings := s.rings.set c ((s.ring c).counted.fill k (s.recordBegun c)) } := by
  have allocated : (s.rings.get c).counted.allocate? = some k := h
  simp only [State.beginFrame, State.setLink, State.setRing, State.fillSlot, State.link, State.ring, PerCam.set_set,
    PerCam.get_set, if_true, allocated]
  rfl

/-- With no slot to be had, the frame start is counted, the overrun announced, and the frame discarded. -/
theorem State.beginFrame_overrun (h : (s.ring c).allocate? = none) (n : Byte) : s.beginFrame c n = { s with
    links := s.links.set c (Link.scheduleUpdate
      { s.link c with lastFrameCounter := n, progress := .discarding, openLine := none } (s.camParams c))
    rings := s.rings.set c { (s.ring c).counted with overruns := bump (s.ring c).overruns }
    mi := s.mi.place (.faultNotice .overrun c.num (bump (s.ring c).overruns)) } := by
  have allocated : (s.rings.get c).counted.allocate? = none := h
  simp only [State.beginFrame, State.overrun, State.notice, State.ask, State.setMi, State.setLink, State.setRing,
    State.link, State.ring, PerCam.set_set, PerCam.get_set, if_true, allocated]
  rfl

/-- A FRAME_START that begins a frame. -/
theorem exec_frameStart_begins (running : s.held = false) (locked : (s.link c).state = .locked)
    (idle : (s.link c).progress = .none ∨ (s.link c).progress = .discarding) (n : Byte) (o : Tap) :
    exec (.frameStart c n o) s = .next (takeHead ((s.frameMarked c o).beginFrame c n)) := by
  rw [exec_frameStart_locked running locked, State.takeFrameStart_idle]
  rw [State.frameMarked_link]
  exact idle

end Sys2Proof.Machine

open Sys2Proof Sys2Proof.Machine

/-- Settles O20: the slot that the frame start gets, and with it the frame that begins or the overrun. -/
theorem frameStartBegins : Obligations.FrameStartBegins := by
  unfold Obligations.FrameStartBegins
  intro s c counter offered running locked idle
  dsimp only
  have row := exec_frameStart_begins running locked idle counter offered
  have filled (k : SlotId) (allocated : (s.ring c).allocate? = some k) := by
    have begun := State.beginFrame_filling (s := s.frameMarked c offered) allocated counter
    rw [Link.scheduleUpdate_of_no_line rfl, State.frameMarked_link, State.frameMarked_links, PerCam.set_set] at begun
    exact row.trans (congrArg (fun t => Host.Outcome.next (takeHead t)) begun)
  refine ⟨fun k free lowest => ?_, fun k older newer full order passed usable => ?_, fun full pinned => ?_⟩
  · exact filled k (Ring.allocate?_free (Ring.free?_eq_some free lowest))
  · refine filled k ((Ring.allocate?_reclaim (Ring.free?_eq_none full)).trans ?_)
    exact Ring.reclaim?_eq_some order passed usable
  · have allocated : (s.ring c).allocate? = none :=
      (Ring.allocate?_reclaim (Ring.free?_eq_none full)).trans (Ring.reclaim?_eq_none pinned)
    rw [row, State.beginFrame_overrun (s := s.frameMarked c offered) allocated, Link.scheduleUpdate_of_no_line rfl,
      State.frameMarked_link, State.frameMarked_links, PerCam.set_set]
    rfl

end

section
/-! Frames of a camera link that end (R15, R19, R20, R58). -/

namespace Sys2Proof.Machine

variable {s : State} {c : CamId} {k : SlotId}

/-! ### An open line settled as bad -/

/-- What settling an open line as bad leaves alone: of the link all but the open line, the next position and the concealed
count, and everything that is neither link nor ring. -/
theorem State.settleOpenBad_link (s : State) (c : CamId) (k : SlotId) : (s.settleOpenBad c k).link c = { s.link c with
    openLine := none
    nextPos := ((s.settleOpenBad c k).link c).nextPos
    concealed := ((s.settleOpenBad c k).link c).concealed } := by
  by_cases line : (s.link c).openLine = none
  · rw [State.settleOpenBad_of_no_line line, ← line]
  · rw [State.settleOpenBad_of_line line, State.closeLine, State.setLink_link, if_pos rfl, State.conceal_link]

theorem State.settleOpenBad_rest (s : State) (c : CamId) (k : SlotId) : s.settleOpenBad c k = { s with
    links := (s.settleOpenBad c k).links, rings := (s.settleOpenBad c k).rings } := by
  unfold State.settleOpenBad
  split <;> rfl

theorem State.settleOpenBad_slot_state (s : State) (c : CamId) (k : SlotId) (d : CamId) (j : SlotId) :
    ((s.settleOpenBad c k).slot d j).state = (s.slot d j).state := by
  by_cases line : (s.link c).openLine = none
  · rw [State.settleOpenBad_of_no_line line]
  · rw [State.settleOpenBad_of_line line]
    change (((s.setSlot c k _)).slot d j).state = _
    rw [State.setSlot_slot]
    split
    · rename_i here
      rw [here.1, here.2]
      rfl
    · rfl

/-- The FILLING slot depends on the slots' states alone. -/
theorem Ring.filling?_congr {r q : Ring} (h : ∀ j : SlotId, (r.slots.get j).state = (q.slots.get j).state) :
    r.filling? = q.filling? := by
  unfold Ring.filling?
  simp only [h]

theorem State.settleOpenBad_filling (s : State) (c : CamId) (k : SlotId) :
    ((s.settleOpenBad c k).ring c).filling? = (s.ring c).filling? :=
  Ring.filling?_congr (s.settleOpenBad_slot_state c k c)

/-! ### Pending updates and the consecutive-malformed count -/

theorem State.applyPendingTap_idle (h : (s.link c).updatePending = false) : s.applyPendingTap c = s := by
  have idle : ¬((s.link c).state = .locked ∧ (s.link c).updatePending = true) := by simp [h]
  rw [State.applyPendingTap, Link.applyPending_idle idle, State.setLink_self]

theorem State.applyPendingTap_due (locked : (s.link c).state = .locked) (pending : (s.link c).updatePending = true)
    (noLine : (s.link c).openLine = none) : s.applyPendingTap c = s.setLink c { s.link c with
      tap := (s.link c).updateTap (s.camParams c).tapOverride, updatePending := false } := by
  rw [State.applyPendingTap, Link.applyPending_due locked pending, Link.applyUpdate_of_no_line noLine]

theorem State.countMalformed_well (s : State) (c : CamId) :
    s.countMalformed c false = s.setLink c { s.link c with consecMalformed := 0 } := rfl

theorem State.countMalformed_below (h : (s.link c).consecMalformed < 2) : s.countMalformed c true =
    s.setLink c { s.link c with consecMalformed := (s.link c).consecMalformed + 1 } := by
  have below : (s.link c).consecMalformed + 1 < 3 := by omega
  simp only [State.countMalformed, if_true, below]

/-- The way out of LOCKED with no frame filling frees no slot. -/
theorem State.leaveLocked_of_no_frame (empty : (s.ring c).filling? = none) : s.leaveLocked c = { s with
    links := s.links.set c { s.link c with
      state := .acquire, attempts := 0, timerStart := s.timebase, refLocked := false, updatePending := false
      progress := .none, openLine := none, lossCount := bump (s.link c).lossCount }
    contexts := s.contexts.set c { s.context c with
      reference := none
      refLost := (s.context c).refLost || s.engine.running.any (fun j => j.job.cam = c) }
    screens := s.screens.set c { s.screen c with clearRef := 0, rejectedRun := 0 }
    mi := s.mi.place (.faultNotice .linkLost c.num (bump (s.link c).lossCount)) } := by
  rw [State.leaveLocked_eq, State.linkDown_eq, empty]
  rfl

/-- The third malformed frame in a row with no other frame filling: FRAME_MALFORMED, and the way out of LOCKED. -/
theorem State.countMalformed_third (h : (s.link c).consecMalformed = 2) (empty : (s.ring c).filling? = none) :
    s.countMalformed c true = { s with
      links := s.links.set c { s.link c with
        consecMalformed := 3, malformedRunCount := bump (s.link c).malformedRunCount
        lossCount := bump (s.link c).lossCount, state := .acquire, attempts := 0, timerStart := s.timebase
        refLocked := false, updatePending := false, progress := .none, openLine := none }
      contexts := s.contexts.set c { s.context c with
        reference := none
        refLost := (s.context c).refLost || s.engine.running.any (fun j => j.job.cam = c) }
      screens := s.screens.set c { s.screen c with clearRef := 0, rejectedRun := 0 }
      mi := (s.mi.place (.faultNotice .frameMalformed c.num (bump (s.link c).malformedRunCount))).place
        (.faultNotice .linkLost c.num (bump (s.link c).lossCount)) } := by
  have third : ¬(s.link c).consecMalformed + 1 < 3 := by omega
  simp only [State.countMalformed, if_true, third, if_false]
  rw [State.leaveLocked_of_no_frame (by exact empty)]
  simp only [State.notice, State.ask, State.setMi, State.setLink, State.link, PerCam.set_set, PerCam.get_set, if_true]
  rfl

/-! ### The end of a frame being received (R19) -/

/-- The frame's end at the link, its open line settled: no frame is in progress, and the positions not settled count as
concealed. -/
def State.frameClosed (v : State) (c : CamId) : State := v.setLink c { v.link c with
  progress := .none, concealed := (v.link c).concealed + (480 - (v.link c).nextPos) }

theorem State.frameClosed_link (v : State) (c : CamId) : (v.frameClosed c).link c = { v.link c with
    progress := .none, concealed := (v.link c).concealed + (480 - (v.link c).nextPos) } := by
  rw [State.frameClosed, State.setLink_link, if_pos rfl]

/-- The malformed end at the store, with no frame left in progress. -/
def State.malformedClosed (v : State) (c : CamId) (k : SlotId) : State := (v.frameClosed c).malformedEnd c k

/-- A malformed frame ended: the store frees the slot, a FRAME_END applies a pending update, the link counts. -/
theorem State.endFrame_malformed {v : State} (settled : s.settleOpenBad c k = v) (filling : (v.ring c).filling? = some k)
    {byStart : Bool} (malformed : frameMalformed ((v.link c).concealed + (480 - (v.link c).nextPos))
      (v.camParams c).concealLimit (v.link c).nextPos byStart = true) :
    s.endFrame c k byStart = (if byStart then v.malformedClosed c k
      else (v.malformedClosed c k).applyPendingTap c).countMalformed c true := by
  subst settled
  have stored (n : Nat) : ((s.settleOpenBad c k).frameClosed c).storeFrameEnd c false n =
      ((s.settleOpenBad c k).frameClosed c).malformedEnd c k := by
    have filling' : (((s.settleOpenBad c k).frameClosed c).ring c).filling? = some k := filling
    simp only [State.storeFrameEnd, filling', Bool.false_eq_true, if_false]
  simp only [State.endFrame, malformed, Bool.not_true]
  exact congrArg (fun w => (if byStart then w else w.applyPendingTap c).countMalformed c true) (stored _)

/-- A well-formed frame ended by its FRAME_END. -/
theorem State.endFrame_wellFormed {v : State} (settled : s.settleOpenBad c k = v) (filling : (v.ring c).filling? = some k)
    (few : (v.link c).concealed ≤ (v.camParams c).concealLimit) (whole : 480 ≤ (v.link c).nextPos) :
    s.endFrame c k false = (((v.frameClosed c).wellFormedEnd c k (v.link c).concealed).applyPendingTap c).countMalformed
      c false := by
  subst settled
  have tail : ((s.settleOpenBad c k).link c).concealed + (480 - ((s.settleOpenBad c k).link c).nextPos) =
      ((s.settleOpenBad c k).link c).concealed := by omega
  have wellFormed : frameMalformed ((s.settleOpenBad c k).link c).concealed
      ((s.settleOpenBad c k).camParams c).concealLimit ((s.settleOpenBad c k).link c).nextPos false = false := by
    simp [frameMalformed, few, whole]
  have stored (n : Nat) : ((s.settleOpenBad c k).frameClosed c).storeFrameEnd c true n =
      ((s.settleOpenBad c k).frameClosed c).wellFormedEnd c k n := by
    have filling' : (((s.settleOpenBad c k).frameClosed c).ring c).filling? = some k := filling
    simp only [State.storeFrameEnd, filling', if_true]
  have closed : (s.settleOpenBad c k).setLink c { (s.settleOpenBad c k).link c with
      progress := .none, concealed := ((s.settleOpenBad c k).link c).concealed } = (s.settleOpenBad c k).frameClosed c := by
    rw [State.frameClosed, tail]
  simp only [State.endFrame, tail, wellFormed, Bool.not_false, Bool.false_eq_true, if_false]
  rw [closed, stored]

/-! ### The states in which frames end -/

section
variable (s c k)
variable (o : Tap)

theorem State.atFrameEnd_link : (s.atFrameEnd c k o).link c = { s.link c with
    timerStart := s.timebase, offered := o, openLine := none
    nextPos := ((s.atFrameEnd c k o).link c).nextPos
    concealed := ((s.atFrameEnd c k o).link c).concealed } := by
  have settled := State.settleOpenBad_link (s.frameMarked c o) c k
  rw [State.frameMarked_link] at settled
  exact settled

theorem State.atFrameEnd_rest : s.atFrameEnd c k o = { s with
    links := (s.atFrameEnd c k o).links, rings := (s.atFrameEnd c k o).rings } :=
  State.settleOpenBad_rest (s.frameMarked c o) c k

theorem State.atFrameEnd_state : ((s.atFrameEnd c k o).link c).state = (s.link c).state := by
  rw [s.atFrameEnd_link c k o]

theorem State.atFrameEnd_openLine : ((s.atFrameEnd c k o).link c).openLine = none := by
  rw [s.atFrameEnd_link c k o]

theorem State.atFrameEnd_updatePending : ((s.atFrameEnd c k o).link c).updatePending = (s.link c).updatePending := by
  rw [s.atFrameEnd_link c k o]

theorem State.atFrameEnd_consecMalformed :
    ((s.atFrameEnd c k o).link c).consecMalformed = (s.link c).consecMalformed := by
  rw [s.atFrameEnd_link c k o]

theorem State.atFrameEnd_tap (override : Int) : ((s.atFrameEnd c k o).link c).updateTap override =
    if 0 ≤ override then BitVec.ofInt 7 override else o := by
  rw [s.atFrameEnd_link c k o, Link.updateTap_eq]

theorem State.atFrameEnd_camParams : (s.atFrameEnd c k o).camParams c = s.camParams c := by
  rw [s.atFrameEnd_rest c k o]
  rfl

theorem State.atFrameEnd_screens : (s.atFrameEnd c k o).screens = s.screens := by
  rw [s.atFrameEnd_rest c k o]

theorem State.atFrameEnd_filling : ((s.atFrameEnd c k o).ring c).filling? = (s.ring c).filling? :=
  State.settleOpenBad_filling (s.frameMarked c o) c k

theorem State.atFrameEnd_slot_state (j : SlotId) : ((s.atFrameEnd c k o).slot c j).state = (s.slot c j).state :=
  State.settleOpenBad_slot_state (s.frameMarked c o) c k c j

end

theorem State.malformedFrame_eq (v : State) (c : CamId) (k : SlotId) : v.malformedFrame c k =
    (v.malformedClosed c k).setLink c { (v.malformedClosed c k).link c with
      consecMalformed := ((v.malformedClosed c k).link c).consecMalformed + 1 } := by
  have linkNow : (v.malformedClosed c k).link c = (v.frameClosed c).link c := rfl
  rw [linkNow, State.frameClosed_link]
  simp only [State.malformedFrame, State.malformedClosed, State.malformedEnd, State.frameClosed, State.setLink,
    State.setRing, PerCam.set_set]
  rfl

/-! ### A FRAME_END or a FRAME_START that finds a frame being received -/

section
variable (v : State) (c : CamId) (k : SlotId)

theorem State.malformedClosed_link : (v.malformedClosed c k).link c = { v.link c with
    progress := .none, concealed := (v.link c).concealed + (480 - (v.link c).nextPos) } := v.frameClosed_link c

/-- The slot of the malformed frame is freed, so no frame is filling when no other was. -/
theorem State.malformedClosed_filling (others : ∀ j : SlotId, j ≠ k → (v.slot c j).state ≠ .filling) :
    ((v.malformedClosed c k).ring c).filling? = none := by
  rw [Ring.filling?, List.find?_eq_none]
  intro j _
  change ¬decide (((((v.frameClosed c).setRing c _).ring c).slots.get j).state = .filling) = true
  rw [State.setRing_ring, if_pos rfl, decide_eq_true_iff]
  change ((((v.ring c).slots.set k _).get j).state ≠ .filling)
  rw [PerSlot.get_set]
  split
  · nofun
  · exact others j ‹_›

end

section
variable {n : Byte} {o : Tap}
variable (running : s.held = false) (locked : (s.link c).state = .locked) (receiving : (s.link c).progress = .receiving k)
include running locked receiving

theorem exec_frameEnd_receiving : exec (.frameEnd c o) s = .next (takeHead ((s.frameMarked c o).endFrame c k false)) := by
  have receiving' : ((s.frameMarked c o).link c).progress = .receiving k := by rw [State.frameMarked_link, receiving]
  rw [exec_frameEnd_locked running locked, State.takeFrameEnd, receiving']

variable (filling : (s.ring c).filling? = some k)
include filling

theorem exec_frameEnd_malformed
    (cutShort : (s.camParams c).concealLimit < ((s.atFrameEnd c k o).link c).concealed +
      (480 - ((s.atFrameEnd c k o).link c).nextPos) ∨ ((s.atFrameEnd c k o).link c).nextPos < 480) :
    exec (.frameEnd c o) s = .next (takeHead
      ((((s.atFrameEnd c k o).malformedClosed c k).applyPendingTap c).countMalformed c true)) := by
  have malformed : frameMalformed (((s.atFrameEnd c k o).link c).concealed + (480 - ((s.atFrameEnd c k o).link c).nextPos))
      ((s.atFrameEnd c k o).camParams c).concealLimit ((s.atFrameEnd c k o).link c).nextPos false = true := by
    simpa [frameMalformed, State.atFrameEnd_camParams] using cutShort
  rw [exec_frameEnd_receiving running locked receiving, State.endFrame_malformed (s := s.frameMarked c o) rfl
    ((s.atFrameEnd_filling c k o).trans filling) malformed]
  rfl

/-- A FRAME_START that finds a frame being received ends it malformed, and begins the next while the link is in LOCKED. -/
theorem exec_frameStart_receiving {w : State} (ended : ((s.atFrameEnd c k o).malformedClosed c k).countMalformed c true = w) :
    exec (.frameStart c n o) s =
      .next (takeHead (if (w.link c).state = .locked then w.beginFrame c n else w)) := by
  subst ended
  have receiving' : ((s.frameMarked c o).link c).progress = .receiving k := by rw [State.frameMarked_link, receiving]
  have malformed := State.endFrame_malformed (s := s.frameMarked c o) rfl
    ((s.atFrameEnd_filling c k o).trans filling) (byStart := true) (by simp [frameMalformed])
  rw [exec_frameStart_locked running locked, State.takeFrameStart, receiving']
  dsimp only
  rw [malformed]
  rfl

end

/-- The third malformed frame in a row, at the link and on the bus. -/
theorem State.malformedClosed_third {v : State} (second : (v.link c).consecMalformed = 2)
    (others : ∀ j : SlotId, j ≠ k → (v.slot c j).state ≠ .filling) :
    (v.malformedClosed c k).countMalformed c true = v.thirdMalformed c k := by
  have second' : ((v.malformedClosed c k).link c).consecMalformed = 2 := by rw [State.malformedClosed_link, second]
  rw [State.countMalformed_third second' (v.malformedClosed_filling c k others), State.thirdMalformed, v.malformedFrame_eq,
    State.malformedClosed_link]
  simp only [State.setLink, State.link, PerCam.set_set, PerCam.get_set, if_true]
  rw [show (v.links.get c).consecMalformed = 2 from second]
  rfl

theorem State.malformedClosed_below {v : State} (below : (v.link c).consecMalformed < 2) :
    (v.malformedClosed c k).countMalformed c true = v.malformedFrame c k := by
  have below' : ((v.malformedClosed c k).link c).consecMalformed < 2 := by rw [State.malformedClosed_link]; exact below
  rw [State.countMalformed_below below', v.malformedFrame_eq]

theorem State.malformedClosed_idle {v : State} (still : (v.link c).updatePending = false) :
    (v.malformedClosed c k).applyPendingTap c = v.malformedClosed c k :=
  State.applyPendingTap_idle (by rw [State.malformedClosed_link]; exact still)

section
variable {v : State} (locked : (v.link c).state = .locked) (pending : (v.link c).updatePending = true)
  (noLine : (v.link c).openLine = none)
include locked pending noLine

theorem State.malformedClosed_due : (v.malformedClosed c k).applyPendingTap c =
    (v.malformedClosed c k).setLink c { (v.malformedClosed c k).link c with
      tap := (v.link c).updateTap (v.camParams c).tapOverride, updatePending := false } := by
  have link := v.malformedClosed_link c k
  rw [State.applyPendingTap_due (by rw [link]; exact locked) (by rw [link]; exact pending) (by rw [link]; exact noLine),
    link]
  rfl

/-- A pending update applied at the end of a malformed frame, below the third in a row. -/
theorem State.malformedClosed_due_below (below : (v.link c).consecMalformed < 2) :
    ((v.malformedClosed c k).applyPendingTap c).countMalformed c true =
    (v.malformedFrame c k).setLink c { (v.malformedFrame c k).link c with
      tap := (v.link c).updateTap (v.camParams c).tapOverride, updatePending := false } := by
  rw [State.malformedClosed_due locked pending noLine, State.countMalformed_below]
  · rw [v.malformedFrame_eq]
    simp only [State.setLink_setLink, State.setLink_link, if_true]
  · rw [State.setLink_link, if_pos rfl, State.malformedClosed_link]
    exact below

/-- The same at the third, at which the link leaves LOCKED. -/
theorem State.malformedClosed_due_third (second : (v.link c).consecMalformed = 2)
    (others : ∀ j : SlotId, j ≠ k → (v.slot c j).state ≠ .filling) :
    ((v.malformedClosed c k).applyPendingTap c).countMalformed c true =
    (v.thirdMalformed c k).setLink c { (v.thirdMalformed c k).link c with
      tap := (v.link c).updateTap (v.camParams c).tapOverride } := by
  rw [State.malformedClosed_due locked pending noLine, State.countMalformed_third]
  · rw [← State.malformedClosed_third second others, State.countMalformed_third]
    · simp only [State.setLink_link, if_true]
      simp only [State.setLink, State.link, PerCam.set_set, PerCam.get_set, if_true]
      rfl
    · rw [State.malformedClosed_link, second]
    · exact v.malformedClosed_filling c k others
  · rw [State.setLink_link, if_pos rfl, State.malformedClosed_link]
    exact second
  · exact v.malformedClosed_filling c k others

end

/-- A link in LOCKED with its marker taken meets the marker of the frame that begins. -/
theorem State.malformedFrame_marked (s : State) (c : CamId) (k : SlotId) (o : Tap) :
    ((s.atFrameEnd c k o).malformedFrame c k).frameMarked c o = (s.atFrameEnd c k o).malformedFrame c k := by
  have here : ((s.atFrameEnd c k o).malformedFrame c k).link c = { ((s.atFrameEnd c k o).malformedFrame c k).link c with
      timerStart := ((s.atFrameEnd c k o).malformedFrame c k).timebase, offered := o } := by
    have now : ((s.atFrameEnd c k o).malformedFrame c k).timebase = s.timebase := by
      change (s.atFrameEnd c k o).timebase = _
      rw [s.atFrameEnd_rest c k o]
    rw [now, State.malformedFrame_eq, State.setLink_link, if_pos rfl, State.malformedClosed_link, State.atFrameEnd_link]
  rw [State.frameMarked, ← here, State.setLink_self]

end Sys2Proof.Machine

open Sys2Proof Sys2Proof.Machine

/-- Settles O21: the frame closed and its slot freed, then the count of it below the third in a row and at the third, each
with a tap update pending or not; a FRAME_START goes on while the link stays in LOCKED. -/
theorem malformedFrameEnds : Obligations.MalformedFrameEnds := by
  unfold Obligations.MalformedFrameEnds
  intro s c k counter offered running locked receiving filling v p cutShort t
  have pending : (v.link c).updatePending = (s.link c).updatePending := s.atFrameEnd_updatePending c k offered
  have run : (v.link c).consecMalformed = (s.link c).consecMalformed := s.atFrameEnd_consecMalformed c k offered
  have locked' : (v.link c).state = .locked := (s.atFrameEnd_state c k offered).trans locked
  have noLine : (v.link c).openLine = none := s.atFrameEnd_openLine c k offered
  have tap : (v.link c).updateTap (v.camParams c).tapOverride =
      if 0 ≤ p.tapOverride then BitVec.ofInt 7 p.tapOverride else offered := by
    rw [s.atFrameEnd_camParams c k offered, s.atFrameEnd_tap c k offered]
  have freed (others : ∀ j : SlotId, j ≠ k → (s.slot c j).state ≠ .filling) (j : SlotId) (other : j ≠ k) :
      (v.slot c j).state ≠ .filling := by
    rw [s.atFrameEnd_slot_state c k offered j]
    exact others j other
  have ends (short : cutShort) : exec (.frameEnd c offered) s =
      .next (takeHead (((v.malformedClosed c k).applyPendingTap c).countMalformed c true)) :=
    exec_frameEnd_malformed running locked receiving filling short
  refine ⟨fun short below still => ?_, fun short below due => ?_, fun below => ?_, fun short second others =>
    ⟨fun still => ?_, fun due => ?_⟩, fun second others => ?_⟩
  · rw [ends short, State.malformedClosed_idle (pending.trans still), State.malformedClosed_below (run.trans_lt below)]
  · rw [ends short, State.malformedClosed_due_below locked' (pending.trans due) noLine (run.trans_lt below), tap]
  · have counted : (v.malformedClosed c k).countMalformed c true = t :=
      State.malformedClosed_below (run.trans_lt below)
    have running' : t.held = false := (congrArg State.held (s.atFrameEnd_rest c k offered)).trans running
    have link : t.link c = { (v.malformedClosed c k).link c with
        consecMalformed := ((v.malformedClosed c k).link c).consecMalformed + 1 } := by
      rw [← counted, State.countMalformed_below, State.setLink_link, if_pos rfl]
      rw [State.malformedClosed_link]
      exact run.trans_lt below
    rw [State.malformedClosed_link] at link
    have stays : (t.link c).state = .locked := by rw [link]; exact locked'
    have idle : (t.link c).progress = .none := by rw [link]
    rw [exec_frameStart_receiving running locked receiving filling counted, if_pos stays,
      exec_frameStart_begins running' stays (.inl idle), State.malformedFrame_marked]
  · rw [ends short, State.malformedClosed_idle (pending.trans still),
      State.malformedClosed_third (run.trans second) (freed others)]
  · rw [ends short, State.malformedClosed_due_third locked' (pending.trans due) noLine (run.trans second) (freed others),
      tap]
  · have left : ¬((v.thirdMalformed c k).link c).state = .locked := by
      rw [State.thirdMalformed, State.link, PerCam.get_set, if_pos rfl]
      nofun
    rw [exec_frameStart_receiving running locked receiving filling
      (State.malformedClosed_third (run.trans second) (freed others)), if_neg left]

end

section
/-! Well-formed frames: the screen's verdict, and the slot and the job it gives rise to (R59, R60, R70, R73–R77). -/

namespace Sys2Proof.Machine

variable {s : State} {c : CamId} {k : SlotId}

/-! ### The screen (R73–R77) -/

/-- What the screen makes of a frame of measure `q`: its verdict, and its state afterwards. -/
def Screen.Judges (sc : Screen) (p : CamParams) (q : Nat) (v : ScreenVerdict) (sc' : Screen) : Prop :=
  sc.verdict p.acceptRatio p.holdLimit q = v ∧ sc.judge p.acceptRatio p.holdLimit q = sc'

section
variable {sc : Screen} {p : CamParams} {q : Nat}

theorem Screen.judges_seed (h : sc.clearRef = 0) : sc.Judges p q .accepted ⟨q, 0, q, .accepted⟩ := by
  simp [Screen.Judges, Screen.verdict, Screen.judge, h]

variable (set : sc.clearRef ≠ 0)
include set

theorem Screen.judges_pass (pass : sc.clearRef * p.acceptRatio ≤ q * 256) :
    sc.Judges p q .accepted ⟨track sc.clearRef q, 0, q, .accepted⟩ := by
  simp [Screen.Judges, Screen.verdict, Screen.judge, set, pass]

variable (fail : ¬sc.clearRef * p.acceptRatio ≤ q * 256)
include fail

theorem Screen.judges_reject (room : sc.rejectedRun < p.holdLimit) :
    sc.Judges p q .rejected ⟨sc.clearRef, sc.rejectedRun + 1, q, .rejected⟩ := by
  simp [Screen.Judges, Screen.verdict, Screen.judge, set, fail, room]

theorem Screen.judges_force (full : p.holdLimit ≤ sc.rejectedRun) :
    sc.Judges p q .forced ⟨q, 0, q, .forced⟩ := by
  simp [Screen.Judges, Screen.verdict, Screen.judge, set, fail, Nat.not_lt.mpr full]

end

/-! ### The frame end by the verdict (R59, R70) -/

section
variable {sc' : Screen} (n : Nat)

theorem State.wellFormedEnd_rejected {v : ScreenVerdict} (unrecorded : v.recorded = none)
    (judged : (s.screen c).Judges (s.camParams c) (s.slot c k).q v sc') :
    s.wellFormedEnd c k n = (s.setScreen c sc').rejectedEnd c k := by
  obtain ⟨verdict, judge⟩ := judged
  simp only [State.wellFormedEnd, verdict, judge, unrecorded]

theorem State.wellFormedEnd_scored {v : ScreenVerdict} {vd : Verdict} (recorded : v.recorded = some vd)
    (judged : (s.screen c).Judges (s.camParams c) (s.slot c k).q v sc') :
    s.wellFormedEnd c k n = (s.setScreen c sc').scoredEnd c k n vd := by
  obtain ⟨verdict, judge⟩ := judged
  simp only [State.wellFormedEnd, verdict, judge, recorded]

end

/-! ### The frame end and the links: neither reads the other -/

/-- A state with other links. -/
def State.withLinks (s : State) (ls : PerCam Link) : State := { s with links := ls }

section
variable (s : State) (ls : PerCam Link) (j : Job) (c : CamId)

theorem State.startNext_withLinks : (s.withLinks ls).startNext = s.startNext.withLinks ls := by
  unfold State.startNext
  dsimp only [State.withLinks]
  split <;> rfl

theorem State.withdraw_withLinks : (s.withLinks ls).withdraw c = (s.withdraw c).withLinks ls := by
  unfold State.withdraw
  dsimp only [State.withLinks]
  split <;> rfl

theorem State.handOff_withLinks : (s.withLinks ls).handOff j = (s.handOff j).withLinks ls := by
  rw [State.handOff, State.withdraw_withLinks]
  exact State.startNext_withLinks ((s.withdraw j.cam).setEngine
    { (s.withdraw j.cam).engine with queue := (s.withdraw j.cam).engine.queue ++ [j] }) ls

theorem State.scoredEnd_withLinks (k : SlotId) (n : Nat) (v : Verdict) :
    (s.withLinks ls).scoredEnd c k n v = (s.scoredEnd c k n v).withLinks ls :=
  State.handOff_withLinks ((s.setSlot c k ((s.slot c k).scored n v)).setRing c
    (((s.setSlot c k ((s.slot c k).scored n v)).ring c).countVerdict v)) ls ⟨c, k⟩

theorem State.wellFormedEnd_withLinks (k : SlotId) (n : Nat) :
    (s.withLinks ls).wellFormedEnd c k n = (s.wellFormedEnd c k n).withLinks ls := by
  cases recorded : ((s.screen c).verdict (s.camParams c).acceptRatio (s.camParams c).holdLimit (s.slot c k).q).recorded with
  | none =>
    rw [State.wellFormedEnd_rejected n recorded ⟨rfl, rfl⟩]
    exact State.wellFormedEnd_rejected (s := s.withLinks ls) n recorded ⟨rfl, rfl⟩
  | some v =>
    rw [State.wellFormedEnd_scored n recorded ⟨rfl, rfl⟩]
    exact (State.wellFormedEnd_scored (s := s.withLinks ls) n recorded ⟨rfl, rfl⟩).trans
      (State.scoredEnd_withLinks (s.setScreen c _) ls c k n v)

theorem State.wellFormedEnd_links (k : SlotId) (n : Nat) : (s.wellFormedEnd c k n).links = s.links := by
  have same := congrArg State.links (s.wellFormedEnd_withLinks s.links c k n)
  exact same

theorem State.wellFormedEnd_setLink (k : SlotId) (n : Nat) (l : Link) :
    (s.wellFormedEnd c k n).setLink c l = (s.setLink c l).wellFormedEnd c k n := by
  rw [State.setLink, State.wellFormedEnd_links]
  exact (s.wellFormedEnd_withLinks _ c k n).symm

theorem State.wellFormedEnd_params (k : SlotId) (n : Nat) : (s.wellFormedEnd c k n).params = s.params := by
  unfold State.wellFormedEnd
  dsimp only
  split
  · rfl
  · exact ((State.PictureFrame.refl _).handOff _).params

end

/-! ### The link after the frame -/

/-- With no line open a pending update moves the tap, and none is pending afterwards. -/
theorem State.applyPendingTap_of_no_line (locked : (s.link c).state = .locked) (noLine : (s.link c).openLine = none) :
    s.applyPendingTap c = s.setLink c { s.link c with
      tap := if (s.link c).updatePending then (s.link c).updateTap (s.camParams c).tapOverride else (s.link c).tap
      updatePending := false } := by
  cases pending : (s.link c).updatePending
  · rw [State.applyPendingTap_idle pending]
    simp only [Bool.false_eq_true, if_false]
    rw [← pending, State.setLink_self]
  · simp only [State.applyPendingTap_due locked pending noLine, if_true]

/-- The end of a well-formed frame at the link and at the store. -/
theorem State.endFrame_settled {v : State} (settled : s.settleOpenBad c k = v) (filling : (v.ring c).filling? = some k)
    (few : (v.link c).concealed ≤ (v.camParams c).concealLimit) (whole : 480 ≤ (v.link c).nextPos)
    (locked : (v.link c).state = .locked) (noLine : (v.link c).openLine = none) :
    s.endFrame c k false = (v.setLink c { v.link c with
      progress := .none
      tap := if (v.link c).updatePending then (v.link c).updateTap (v.camParams c).tapOverride else (v.link c).tap
      updatePending := false, consecMalformed := 0 }).wellFormedEnd c k (v.link c).concealed := by
  have tail : (v.link c).concealed + (480 - (v.link c).nextPos) = (v.link c).concealed := by omega
  have link : ((v.frameClosed c).wellFormedEnd c k (v.link c).concealed).link c = { v.link c with progress := .none } := by
    rw [State.link, State.wellFormedEnd_links]
    exact (v.frameClosed_link c).trans (by rw [tail])
  have params : ((v.frameClosed c).wellFormedEnd c k (v.link c).concealed).camParams c = v.camParams c :=
    congrArg (fun p => State.camParams { v with params := p } c) (State.wellFormedEnd_params _ _ _ _)
  rw [State.endFrame_wellFormed settled filling few whole, State.applyPendingTap_of_no_line, State.countMalformed_well,
    State.setLink_setLink, State.setLink_link, if_pos rfl, link, params]
  · rw [State.wellFormedEnd_setLink, State.frameClosed, State.setLink_setLink]
    rfl
  · rw [link]; exact locked
  · rw [link]; exact noLine

/-- A slot scored, in the ring it stands in. -/
theorem State.scoredEnd_eq (s : State) (c : CamId) (k : SlotId) (n : Nat) (v : Verdict) : s.scoredEnd c k n v =
    State.handOff { s with rings := s.rings.set c { s.ring c with
      forced := ((s.ring c).countVerdict v).forced
      slots := (s.ring c).slots.set k ((s.slot c k).scored n v) } } ⟨c, k⟩ := by
  have ring : (s.setSlot c k ((s.slot c k).scored n v)).setRing c
      (((s.setSlot c k ((s.slot c k).scored n v)).ring c).countVerdict v) = { s with rings := s.rings.set c { s.ring c with
        forced := ((s.ring c).countVerdict v).forced
        slots := (s.ring c).slots.set k ((s.slot c k).scored n v) } } := by
    simp only [State.setSlot, State.setRing, State.ring, PerCam.set_set, PerCam.get_set, if_true]
    cases v <;> rfl
  exact congrArg (fun t => State.handOff t ⟨c, k⟩) ring

/-- A FRAME_END with no frame, or closing a discarded one, applies a pending update. -/
theorem State.takeFrameEnd_idle (idle : (s.link c).progress = .none ∨ (s.link c).progress = .discarding)
    (locked : (s.link c).state = .locked) (noLine : (s.link c).openLine = none) :
    s.takeFrameEnd c = s.setLink c { s.link c with
      progress := .none
      tap := if (s.link c).updatePending then (s.link c).updateTap (s.camParams c).tapOverride else (s.link c).tap
      updatePending := false } := by
  rcases idle with none | discarding
  · simp only [State.takeFrameEnd, none]
    rw [State.applyPendingTap_of_no_line locked noLine, ← none]
  · simp only [State.takeFrameEnd, discarding]
    rw [State.applyPendingTap_of_no_line, State.setLink_setLink, State.setLink_link, if_pos rfl]
    · rfl
    · rw [State.setLink_link, if_pos rfl, ← locked]
    · rw [State.setLink_link, if_pos rfl, ← noLine]

end Sys2Proof.Machine

open Sys2Proof Sys2Proof.Machine

/-- Settles O22: the link of the frame that ends commutes with the store, which acts on the verdict; the verdicts are the four
cases of the screen. -/
theorem wellFormedFrameEnds : Obligations.WellFormedFrameEnds := by
  unfold Obligations.WellFormedFrameEnds
  intro s c k offered running locked v p sc q passes updated judged scored
  refine ⟨fun receiving filling few whole => ?_, fun idle noLine => ?_⟩
  · have screens : v.screens = s.screens := s.atFrameEnd_screens c k offered
    have params : v.camParams c = s.camParams c := s.atFrameEnd_camParams c k offered
    have ends : exec (.frameEnd c offered) s = .next (takeHead
        ((v.setLink c { updated (v.link c) with consecMalformed := 0 }).wellFormedEnd c k (v.link c).concealed)) := by
      rw [exec_frameEnd_receiving running locked receiving, State.endFrame_settled (s := s.frameMarked c offered) (v := v)
        rfl ((s.atFrameEnd_filling c k offered).trans filling) (by rw [params]; exact few) whole
        ((s.atFrameEnd_state c k offered).trans locked) (s.atFrameEnd_openLine c k offered), s.atFrameEnd_tap c k offered,
        params]
    have judgedThere {vs : ScreenVerdict} {sc' : Screen} (h : sc.Judges p q vs sc') :
        (v.screen c).Judges (v.camParams c) (v.slot c k).q vs sc' := by
      rw [params, State.screen, screens]
      exact h
    have ofScored {vs : ScreenVerdict} {vd : Verdict} {sc' : Screen} (recorded : vs.recorded = some vd)
        (h : sc.Judges p q vs sc') : exec (.frameEnd c offered) s =
          .next (takeHead (scored (judged sc') ((v.ring c).countVerdict vd).forced vd)) := by
      rw [ends, State.wellFormedEnd_scored _ recorded (by exact judgedThere h), State.scoredEnd_eq]
      dsimp only [scored, judged]
      rw [← screens]
      rfl
    refine ⟨fun unset => ofScored rfl (Screen.judges_seed unset), fun set pass => ofScored rfl (Screen.judges_pass set pass),
      fun set fail room => ?_, fun set fail full => ofScored rfl (Screen.judges_force set fail full)⟩
    rw [ends, State.wellFormedEnd_rejected _ rfl (by exact judgedThere (Screen.judges_reject set fail room))]
    dsimp only [judged]
    rw [← screens]
    rfl
  · have marked := s.frameMarked_link c offered
    rw [exec_frameEnd_locked running locked, State.takeFrameEnd_idle (by rw [marked]; exact idle)
      (by rw [marked]; exact locked) (by rw [marked]; exact noLine), marked, State.frameMarked, State.setLink_setLink]
    rfl

end

section
/-! The soft reset, block by block (R12, R47, R67, R83, R106, R128, R149, R172, R185, R191, R201). -/

namespace Sys2Proof.Machine

variable {s : State} {c : CamId}

/-! ### The links' part (R12, R63) -/

/-- A ring after link-down: the FILLING slot, if any, is freed and its frame counted as aborted (R63). -/
def Ring.linkDown (r : Ring) : Ring := r.filling?.elim r (fun k => { r.free k with aborted := bump r.aborted })

/-- A ring after the part of its camera's link: link-down, when the link was in LOCKED. -/
def Ring.afterLink (r : Ring) (l : Link) : Ring := if l.state = .locked then r.linkDown else r

theorem State.linkDown_ring (s : State) (c d : CamId) :
    (s.linkDown d).ring c = if c = d then (s.ring c).linkDown else s.ring c := by
  rw [State.linkDown_eq, Ring.linkDown]
  by_cases same : c = d
  · subst same
    rw [if_pos rfl]
    cases filling : (s.ring c).filling? with
    | none => rfl
    | some k => exact PerCam.get_set _ _ _ _ |>.trans (if_pos rfl)
  · rw [if_neg same]
    cases filling : (s.ring d).filling? with
    | none => rfl
    | some k => exact PerCam.get_set _ _ _ _ |>.trans (if_neg same)

/-- A state with other links, rings, screens and contexts. -/
def State.withCameras (s : State) (ls : PerCam Link) (rs : PerCam Ring) (scs : PerCam Screen) (xs : PerCam Context) :
    State := { s with links := ls, rings := rs, screens := scs, contexts := xs }

section
variable (s : State) (c d : CamId)

theorem State.softResetLink_rest : ∃ ls rs scs xs, s.softResetLink d = s.withCameras ls rs scs xs := by
  unfold State.softResetLink
  dsimp only
  split
  · rw [State.linkDown_eq]
    exact ⟨_, _, _, _, rfl⟩
  · exact ⟨_, _, _, _, rfl⟩

theorem State.softResetLink_camParams : (s.softResetLink d).camParams c = s.camParams c := by
  obtain ⟨ls, rs, scs, xs, rest⟩ := s.softResetLink_rest d
  rw [rest]
  rfl

theorem State.softResetLink_timebase : (s.softResetLink d).timebase = s.timebase := by
  obtain ⟨ls, rs, scs, xs, rest⟩ := s.softResetLink_rest d
  rw [rest]
  rfl

theorem State.softResetLink_link : (s.softResetLink d).link c =
    if c = d then (s.link c).softReset (s.camParams c).linkEnable s.timebase else s.link c := by
  have link (t : State) (h : t.links = s.links) (p : t.params = s.params) (now : t.timebase = s.timebase) :
      (t.setLink d ((t.link d).softReset (t.camParams d).linkEnable t.timebase)).link c =
        if c = d then (s.link c).softReset (s.camParams c).linkEnable s.timebase else s.link c := by
    rw [State.setLink_link, State.link, State.link, State.camParams, h, p, now]
    split
    · rename_i same; rw [same]; rfl
    · rfl
  unfold State.softResetLink
  dsimp only
  split
  · exact link _ (s.linkDown_links d) (by rw [State.linkDown_eq]) (s.linkDown_timebase d)
  · exact link _ rfl rfl rfl

theorem State.softResetLink_ring : (s.softResetLink d).ring c =
    if c = d then (s.ring c).afterLink (s.link c) else s.ring c := by
  unfold State.softResetLink
  dsimp only
  rw [State.setLink_ring, Ring.afterLink]
  by_cases same : c = d
  · subst same
    split
    · rw [State.linkDown_ring]
    · simp
  · split
    · rw [State.linkDown_ring, if_neg same]
    · rfl

/-- Of a context, the part of the link touches nothing that the soft reset keeps. -/
theorem State.softResetLink_context : ((s.softResetLink d).context c).softReset = (s.context c).softReset := by
  unfold State.softResetLink
  dsimp only
  split
  · rw [State.linkDown_eq]
    by_cases same : c = d
    · subst same
      simp only [State.setLink, State.context, PerCam.get_set, if_true]
      rfl
    · simp only [State.setLink, State.context, PerCam.get_set, same, if_false]
  · rfl

end

theorem State.foldl_softResetLink_rest (cs : List CamId) (s : State) : ∃ ls rs scs xs,
    cs.foldl State.softResetLink s = s.withCameras ls rs scs xs := by
  induction cs generalizing s with
  | nil => exact ⟨s.links, s.rings, s.screens, s.contexts, rfl⟩
  | cons d cs ih =>
    obtain ⟨_, _, _, _, step⟩ := s.softResetLink_rest d
    obtain ⟨ls, rs, scs, xs, rest⟩ := ih (s.softResetLink d)
    exact ⟨ls, rs, scs, xs, rest.trans (by rw [step]; rfl)⟩

/-- The state after every link's part. -/
def State.linksReset (s : State) : State := CamId.all.foldl State.softResetLink s

section
variable (s : State) (c : CamId)

theorem State.linksReset_link : s.linksReset.link c =
    (s.link c).softReset (s.camParams c).linkEnable s.timebase := by
  change ((((s.softResetLink .cam0).softResetLink .cam1).softResetLink .cam2).softResetLink .cam3).link c = _
  cases c <;> simp [State.softResetLink_link, State.softResetLink_camParams, State.softResetLink_timebase]

theorem State.linksReset_ring : s.linksReset.ring c = (s.ring c).afterLink (s.link c) := by
  change ((((s.softResetLink .cam0).softResetLink .cam1).softResetLink .cam2).softResetLink .cam3).ring c = _
  cases c <;> simp [State.softResetLink_ring, State.softResetLink_link]

theorem State.linksReset_context : (s.linksReset.context c).softReset = (s.context c).softReset := by
  change (((((s.softResetLink .cam0).softResetLink .cam1).softResetLink .cam2).softResetLink .cam3).context c).softReset = _
  simp only [State.softResetLink_context]

end

/-! ### What the soft reset leaves of a ring (R63, R67) -/

section
variable {r : Ring} {l : Link} {j : SlotId}

theorem Ring.afterLink_seqCounter (r : Ring) (l : Link) : (r.afterLink l).seqCounter = r.seqCounter := by
  unfold Ring.afterLink Ring.linkDown
  split
  · cases r.filling? <;> rfl
  · rfl

theorem Ring.afterLink_received (r : Ring) (l : Link) : (r.afterLink l).received = r.received := by
  unfold Ring.afterLink Ring.linkDown
  split
  · cases r.filling? <;> rfl
  · rfl

/-- With no frame filling none is counted as aborted. -/
theorem Ring.softReset_aborted_empty (empty : r.filling? = none) : (r.afterLink l).softReset.aborted = r.aborted := by
  have same : r.afterLink l = r := by rw [Ring.afterLink, Ring.linkDown, empty, Option.elim_none, ite_self]
  rw [same, Ring.softReset, empty]
  rfl

/-- A frame filling is counted once, by the link-down or by the store. -/
theorem Ring.softReset_aborted_filling (filling : r.filling? = some j)
    (others : ∀ i : SlotId, i ≠ j → (r.slots.get i).state ≠ .filling) :
    (r.afterLink l).softReset.aborted = bump r.aborted := by
  rw [Ring.afterLink, Ring.linkDown, filling, Option.elim_some]
  split
  · have empty : Ring.filling? { r.free j with aborted := bump r.aborted } = none := by
      rw [Ring.filling?, List.find?_eq_none]
      intro i _
      change ¬decide (((r.slots.set j _).get i).state = .filling) = true
      rw [PerSlot.get_set, decide_eq_true_iff]
      split
      · nofun
      · exact others i ‹_›
    rw [Ring.softReset, empty]
    rfl
  · rw [Ring.softReset, filling]
    rfl

end

/-! ### A grant with no copy on the output (R165) -/

/-- The copier idle, with nothing waiting. -/
def StillUnit.Idle (u : StillUnit) : Prop := u.running = none ∧ u.waiting = []

theorem State.abortCopy_of_idle (idle : s.stillUnit.Idle) (o : OutId) : s.abortCopy o = s := by
  obtain ⟨running, waiting⟩ := idle
  simp [State.abortCopy, State.endCopy, StillUnit.pendingOf, StillUnit.runningOf, running, waiting]

/-- The output's part of a grant: the new view, unfrozen. -/
def State.viewGranted (s : State) (o : OutId) (v : View) (g : OutGrant) : State := { s with
  outputs := s.outputs.set o { s.output o with grant := some v, frozen := false }
  arbiter := { s.arbiter with outs := s.arbiter.outs.set o g }
  mi := s.mi.place (.viewStatus o) }

theorem State.setOutGrant_formCandidate (s : State) (o : OutId) (g : OutGrant) : (s.setOutGrant o g).formCandidate o =
    s.setOutGrant o { g with candidate := (s.requests o).candidateFor g } := by
  simp [State.formCandidate, State.setOutGrant, State.outGrant, State.requests, State.setArbiter]

/-- A grant change of an output just given to a requester with an entry. -/
theorem State.setOutGrant_grantChange {o : OutId} {r : Requester} {e : Entry} {g : OutGrant} (idle : s.stillUnit.Idle)
    (holder : g.holder = some r) (entry : (s.requests o).get r = some e) : (s.setOutGrant o g).grantChange o =
      s.viewGranted o e.view { g with grantCount := bump g.grantCount } := by
  have given : (s.setOutGrant o g).outGrant o = g := by simp [State.setOutGrant]
  have entry' : ((s.setOutGrant o g).requests o).get r = some e := entry
  have view : (s.setOutGrant o g).grantedView o = some e.view := by
    simp only [State.grantedView, State.holderEntry?, given, holder, entry', Option.map_some]
  unfold State.grantChange
  dsimp only
  rw [State.abortCopy_of_idle (by exact idle), view]
  simp only [State.handGrant, State.ask, State.setMi, State.setOutput, State.setOutGrant, State.setArbiter, State.outGrant,
    PerOut.set_set, PerOut.get_set, if_true]
  rfl

theorem State.grantTo_of_idle {o : OutId} {r : Requester} {e : Entry} (idle : s.stillUnit.Idle)
    (entry : (s.requests o).get r = some e) : ∃ g : OutGrant, g.holder = some r ∧
      g.grantCount = bump (s.outGrant o).grantCount ∧ s.grantTo o r = s.viewGranted o e.view g := by
  unfold State.grantTo
  dsimp only
  rw [State.setOutGrant_formCandidate, State.setOutGrant_grantChange idle rfl entry]
  exact ⟨_, rfl, rfl, rfl⟩

/-- The auger entry made on an output that nobody holds: it is granted its view at once (R159, R169). -/
theorem State.augerCreate_of_idle {o : OutId} (output : s.params.augerOutput = o) (idle : s.stillUnit.Idle)
    (free : (s.outGrant o).holder = none) : ∃ (n : Nat) (g : OutGrant), g.holder = some .auger ∧
      g.grantCount = bump (s.outGrant o).grantCount ∧
      s.augerCreate = State.viewGranted { s with arbiter := { s.arbiter with
        receipts := n
        table := s.arbiter.table.set o { s.requests o with
          auger := some ⟨.full s.params.augerCamera, s.params.augerPriority, 0, s.timebase, n⟩ } } }
        o (.full s.params.augerCamera) g := by
  subst output
  unfold State.augerCreate State.receive State.afterReceipt
  dsimp only
  simp only [State.setEntry, State.setRequests, State.setArbiter, State.outGrant, State.requests] at free ⊢
  simp only [free]
  obtain ⟨g, holder, count, granted⟩ := State.grantTo_of_idle (s := { s with arbiter := { s.arbiter with
    receipts := s.arbiter.receipts + 1
    table := s.arbiter.table.set s.params.augerOutput { s.requests s.params.augerOutput with
      auger := some ⟨.full s.params.augerCamera, s.params.augerPriority, 0, s.timebase, s.arbiter.receipts + 1⟩ } } })
    (o := s.params.augerOutput) (r := .auger) idle (by simp [State.requests, Requests.get]; rfl)
  exact ⟨_, g, holder, count, granted⟩

/-! ### The whole of it (R191) -/

/-- The interface after a soft reset asked for by `node`: the answer and both VIEW STATUS are queued. -/
def Interface.afterReset (mi : Interface) (node : Byte) (underWay : Bool) (now : Time) : Interface :=
  { mi.softReset underWay now with
    queue := [.requestResult node 15 .command .ok, .viewStatus .a, .viewStatus .b] }

/-- A VIEW STATUS asked for then merges with the one queued. -/
theorem Interface.afterReset_viewStatus (mi : Interface) (node : Byte) (underWay : Bool) (now : Time) (o : OutId) :
    (mi.afterReset node underWay now).place (.viewStatus o) = mi.afterReset node underWay now := by
  cases o <;> rfl

/-- The parts of the blocks that follow the links'. -/
def State.othersReset (s : State) : State := { s with
  rings := s.rings.map Ring.softReset
  screens := .same .initial
  contexts := s.contexts.map Context.softReset
  engine := ⟨none, []⟩
  outputs := s.outputs.map Compositor.softReset
  stillUnit := s.stillUnit.softReset
  arbiter := s.arbiter.softReset }

theorem State.softReset_announced (s : State) (node : Byte) (underWay : Bool) :
    (((s.setMi (s.mi.softReset underWay s.timebase)).answer node 15 .command .ok).ask (.viewStatus .a)).ask
      (.viewStatus .b) = s.setMi (s.mi.afterReset node underWay s.timebase) := rfl

/-- The state after a soft reset but for the auger entry: the four cameras' parts, the other blocks and the interface. -/
theorem State.softReset_eq (s : State) (node : Byte) (underWay : Bool) : ∃ ls rs scs xs,
    (∀ c : CamId, ls.get c = (s.link c).softReset (s.camParams c).linkEnable s.timebase ∧
      rs.get c = (s.ring c).afterLink (s.link c) ∧ (xs.get c).softReset = (s.context c).softReset) ∧
    s.softReset node underWay = (((s.setMi (s.mi.afterReset node underWay s.timebase)).withCameras ls rs scs
      xs).othersReset).recreateAuger := by
  obtain ⟨ls, rs, scs, xs, rest⟩ := State.foldl_softResetLink_rest CamId.all
    (s.setMi (s.mi.afterReset node underWay s.timebase))
  have rest' : (s.setMi (s.mi.afterReset node underWay s.timebase)).linksReset = _ := rest
  refine ⟨ls, rs, scs, xs, fun c => ⟨?_, ?_, ?_⟩, ?_⟩
  · have link := (s.setMi (s.mi.afterReset node underWay s.timebase)).linksReset_link c
    rw [rest'] at link
    exact link
  · have ring := (s.setMi (s.mi.afterReset node underWay s.timebase)).linksReset_ring c
    rw [rest'] at ring
    exact ring
  · have context := (s.setMi (s.mi.afterReset node underWay s.timebase)).linksReset_context c
    rw [rest'] at context
    exact context
  · rw [State.softReset]
    rw [State.softReset_announced, ← rest']
    rfl

/-! ### Outputs, stills and arbiter -/

/-- The view side of a soft reset: the outputs show their default views, blanked, and no request is left but for the auger
entry made anew. -/
structure State.ViewsReset (s t : State) : Prop where
  outputs : ∀ o : OutId, (t.output o).frozen = false ∧ (t.output o).mode = .liveView ∧ (t.output o).blanked = true ∧
    (t.output o).win1.slot = none ∧ (t.output o).win2.slot = none ∧ (t.output o).shown = (s.output o).shown ∧
    (t.output o).rasterStart = (s.output o).rasterStart
  lastHeard : ∀ j : ReqSlot, t.arbiter.lastHeard.get j = none
  expiryCount : t.arbiter.expiryCount = s.arbiter.expiryCount
  masters : ∀ (o : OutId) (j : ReqSlot), t.entry? o (.master j) = none
  vacant : ∀ o : OutId, ¬((s.channel .ec2).auger = .outside ∧ 0 < s.params.augerPriority ∧ o = s.params.augerOutput) →
    t.entry? o .auger = none ∧ t.outGrant o = { s.outGrant o with
      holder := none, dwellRunning := false, candidate := none } ∧ (t.output o).grant = none
  auger : (s.channel .ec2).auger = .outside → 0 < s.params.augerPriority →
    (∃ n, t.entry? s.params.augerOutput .auger =
      some ⟨.full s.params.augerCamera, s.params.augerPriority, 0, s.timebase, n⟩) ∧
    (t.outGrant s.params.augerOutput).holder = some .auger ∧
    (t.outGrant s.params.augerOutput).grantCount = bump (s.outGrant s.params.augerOutput).grantCount ∧
    (t.output s.params.augerOutput).grant = some (.full s.params.augerCamera)

theorem State.othersReset_entry (s : State) (o : OutId) (r : Requester) : s.othersReset.entry? o r = none := by
  cases o <;> cases r with
  | auger => rfl
  | master k => cases k <;> rfl

theorem State.othersReset_outGrant (s : State) (o : OutId) : s.othersReset.outGrant o = { s.outGrant o with
    holder := none, dwellRunning := false, candidate := none } := by
  cases o <;> rfl

theorem State.othersReset_output (s : State) (o : OutId) : s.othersReset.output o = (s.output o).softReset := by
  cases o <;> rfl

/-- Without an auger entry to make, every output is without requests. -/
theorem State.othersReset_views (absent : ¬((s.channel .ec2).auger = .outside ∧ 0 < s.params.augerPriority)) :
    s.ViewsReset s.othersReset where
  outputs o := by rw [State.othersReset_output]; exact ⟨rfl, rfl, rfl, rfl, rfl, rfl, rfl⟩
  lastHeard j := PerReq.get_same _ _
  expiryCount := rfl
  masters o j := s.othersReset_entry o _
  vacant o _ := ⟨s.othersReset_entry o _, s.othersReset_outGrant o, by rw [State.othersReset_output]; rfl⟩
  auger out positive := absurd ⟨out, positive⟩ absent

/-- The auger entry made anew holds its output, and the other output is without requests. -/
theorem State.augerCreate_views {t : State} {n : Nat} {g : OutGrant}
    (due : (s.channel .ec2).auger = .outside ∧ 0 < s.params.augerPriority) (holder : g.holder = some .auger)
    (count : g.grantCount = bump (s.outGrant s.params.augerOutput).grantCount)
    (outputs : t.outputs = s.othersReset.outputs.set s.params.augerOutput
      { s.othersReset.output s.params.augerOutput with grant := some (.full s.params.augerCamera), frozen := false })
    (arbiter : t.arbiter = { s.othersReset.arbiter with
      receipts := n
      table := s.othersReset.arbiter.table.set s.params.augerOutput { s.othersReset.requests s.params.augerOutput with
        auger := some ⟨.full s.params.augerCamera, s.params.augerPriority, 0, s.timebase, n⟩ }
      outs := s.othersReset.arbiter.outs.set s.params.augerOutput g }) : s.ViewsReset t := by
  have output (o : OutId) : t.output o = if o = s.params.augerOutput then
      { s.othersReset.output s.params.augerOutput with grant := some (.full s.params.augerCamera), frozen := false }
      else s.othersReset.output o := by
    rw [State.output, outputs, PerOut.get_set]; rfl
  have requests (o : OutId) : t.requests o = if o = s.params.augerOutput then { s.othersReset.requests o with
      auger := some ⟨.full s.params.augerCamera, s.params.augerPriority, 0, s.timebase, n⟩ }
      else s.othersReset.requests o := by
    rw [State.requests, arbiter, PerOut.get_set]
    split
    · rename_i here; rw [here]
    · rfl
  have outGrant (o : OutId) : t.outGrant o = if o = s.params.augerOutput then g else s.othersReset.outGrant o := by
    rw [State.outGrant, arbiter, PerOut.get_set]; rfl
  refine ⟨fun o => ?_, fun j => ?_, ?_, fun o j => ?_, fun o elsewhere => ?_, fun _ _ => ⟨⟨n, ?_⟩, ?_, ?_, ?_⟩⟩
  · rw [output]
    split
    · rename_i here
      rw [State.othersReset_output, here]
      exact ⟨rfl, rfl, rfl, rfl, rfl, rfl, rfl⟩
    · rw [State.othersReset_output]
      exact ⟨rfl, rfl, rfl, rfl, rfl, rfl, rfl⟩
  · rw [arbiter]; exact PerReq.get_same _ _
  · rw [arbiter]; rfl
  · rw [State.entry?, requests]
    split
    · exact s.othersReset_entry o (.master j)
    · exact s.othersReset_entry o (.master j)
  · have other : o ≠ s.params.augerOutput := fun here => elsewhere ⟨due.1, due.2, here⟩
    rw [State.entry?, requests, outGrant, output, if_neg other, if_neg other, if_neg other]
    exact ⟨s.othersReset_entry o .auger, s.othersReset_outGrant o, by rw [State.othersReset_output]; rfl⟩
  · rw [State.entry?, requests, if_pos rfl]; rfl
  · rw [outGrant, if_pos rfl, holder]
  · rw [outGrant, if_pos rfl, count]
  · rw [output, if_pos rfl]

/-- The auger's part: of the state after the other blocks' it changes outputs and arbiter alone, where the VIEW STATUS that
it asks for is queued already. -/
theorem State.recreateAuger_views (merges : ∀ o : OutId, s.mi.place (.viewStatus o) = s.mi) :
    ∃ os a, s.othersReset.recreateAuger = { s.othersReset with outputs := os, arbiter := a } ∧
      s.ViewsReset s.othersReset.recreateAuger := by
  unfold State.recreateAuger
  by_cases due : (s.othersReset.channel .ec2).auger = .outside ∧ 0 < s.othersReset.params.augerPriority
  · rw [if_pos due]
    obtain ⟨n, g, holder, count, created⟩ := State.augerCreate_of_idle (s := s.othersReset) (o := s.params.augerOutput) rfl
      ⟨rfl, rfl⟩ (by rw [State.othersReset_outGrant])
    have merged : s.othersReset.mi.place (.viewStatus s.params.augerOutput) = s.othersReset.mi := merges _
    refine ⟨s.othersReset.augerCreate.outputs, s.othersReset.augerCreate.arbiter, ?_,
      State.augerCreate_views due holder ?_ (congrArg State.outputs created) (congrArg State.arbiter created)⟩
    · rw [created]
      simp only [State.viewGranted]
      rw [merged]
    · rw [count, State.othersReset_outGrant]
  · rw [if_neg due]
    exact ⟨_, _, rfl, State.othersReset_views due⟩

/-! ### The command (R191, R201) -/

theorem obey_device (node : Byte) (bits : Word) (underWay : Bool) (s : State) :
    obey node .device (bits ||| BitVec.twoPow 16 0) underWay s = s.softReset node underWay := by
  have bit : (bits ||| BitVec.twoPow 16 0).getLsbD 0 = true := by simp
  simp only [obey, bit, if_true]

section
variable {node : Byte} {k : ReqSlot} {bits : Word} {underWay : Bool}

theorem exec_softReset_onBus (h : s.Hears node k) :
    exec (.softReset node bits underWay) s = .next (takeHead ((s.heard k).softReset node underWay)) := by
  have onBus : s.mi.busState ≠ .busOff := fun off => by simpa [Interface.onBus, off] using h.onBus
  rw [← obey_device node bits, ← bitCommand_known h]
  simp only [exec, execSoftReset, event_running h.held, onBus, if_false]

variable (running : s.held = false) (off : s.mi.busState = .busOff)
include running off

theorem exec_softReset_busOff (known : s.matchNode node = some k) :
    exec (.softReset node bits underWay) s = .next (takeHead ((s.refresh k).softReset node underWay)) := by
  rw [← obey_device node bits]
  simp only [exec, execSoftReset, event_running running, off, if_true, bitCommand, commandMessage, fromNode, known,
    targetOf_byte]

theorem exec_softReset_unknown (unknown : s.matchNode node = none) : exec (.softReset node bits underWay) s =
    .next (takeHead (s.ask (.requestResult node 15 .command .unknownRequester))) := by
  simp only [exec, execSoftReset, event_running running, off, if_true, bitCommand, commandMessage, fromNode, unknown]
  rfl

end

/-- From a known node the reset takes the state in which the node has been heard; in BUS_OFF no frame is received, and the
interface is as it was. -/
theorem exec_softReset_known {s u : State} {node : Byte} {k : ReqSlot} {bits : Word} {underWay : Bool}
    (known : (s.Hears node k ∧ u = s.heard k) ∨
      (s.held = false ∧ s.mi.busState = .busOff ∧ s.matchNode node = some k ∧ u = s)) :
    ∃ lastHeard, exec (.softReset node bits underWay) s = .next (takeHead (State.softReset
      { s with mi := u.mi, arbiter := { s.arbiter with lastHeard := lastHeard } } node underWay)) ∧ s.held = false := by
  rcases known with ⟨hears, heard⟩ | ⟨running, off, matched, same⟩
  · exact ⟨_, by rw [exec_softReset_onBus hears, heard]; rfl, hears.held⟩
  · exact ⟨_, by rw [exec_softReset_busOff running off matched, same]; rfl, running⟩

/-- A link's part, by LINK_ENABLE (R12). -/
theorem Link.softReset_enabled (l : Link) (now : Time) : l.softReset true now = { l with
    consecMalformed := 0, state := .acquire, attempts := 0, timerStart := now, refLocked := false
    updatePending := false, progress := .none, openLine := none } := rfl
theorem Link.softReset_disabled (l : Link) (now : Time) : l.softReset false now = { l with
    consecMalformed := 0, attempts := 0, state := .down, refLocked := false, updatePending := false
    progress := .none, openLine := none } := rfl

end Sys2Proof.Machine

open Sys2Proof Sys2Proof.Machine

/-- Settles O33: the four links' parts, the other blocks', and the auger entry, which touches outputs and arbiter alone; each
field is read off the state that they leave. -/
theorem softResetState : Obligations.SoftResetState := by
  unfold Obligations.SoftResetState
  refine ⟨fun s node bits underWay running off unknown => exec_softReset_unknown running off unknown,
    fun s u node k bits underWay known => ?_⟩
  obtain ⟨lastHeard, row, running⟩ := exec_softReset_known (bits := bits) (underWay := underWay) known
  obtain ⟨ls, rs, scs, xs, cameras, reset⟩ := State.softReset_eq
    { s with mi := u.mi, arbiter := { s.arbiter with lastHeard := lastHeard } } node underWay
  obtain ⟨os, a, rest, views⟩ := State.recreateAuger_views
    (s := (State.setMi { s with mi := u.mi, arbiter := { s.arbiter with lastHeard := lastHeard } }
      (u.mi.afterReset node underWay s.timebase)).withCameras ls rs scs xs)
    (fun o => u.mi.afterReset_viewStatus node underWay s.timebase o)
  refine ⟨_, row, ?_⟩
  rw [reset]
  generalize State.recreateAuger _ = t at rest views
  have links (c : CamId) : t.link c = (s.link c).softReset (s.camParams c).linkEnable s.timebase := by
    rw [rest]
    exact (cameras c).1
  have rings (c : CamId) : t.ring c = ((s.ring c).afterLink (s.link c)).softReset := by
    rw [rest]
    exact (PerCam.get_map _ _ _).trans (congrArg Ring.softReset (cameras c).2.1)
  have contexts (c : CamId) : t.context c = (s.context c).softReset := by
    rw [rest]
    exact (PerCam.get_map _ _ _).trans (cameras c).2.2
  have stills (o : OutId) : t.still o = (s.still o).softReset := by
    rw [rest]
    exact PerOut.get_map _ _ _
  have mi : t.mi = u.mi.afterReset node underWay s.timebase := by rw [rest]; rfl
  refine ⟨?_, fun c => ⟨fun on => ?_, fun off => ?_⟩, fun c => ⟨fun j => ?_, ?_, ?_, ?_, fun empty => ?_,
    fun j filling others => ?_⟩, contexts, views.outputs, fun o => ?_, ?_, ?_, views.lastHeard, views.expiryCount,
    views.masters, views.vacant, views.auger, ?_⟩
  · rw [rest]
    exact ⟨rfl, running, rfl, rfl, rfl, rfl, rfl, rfl, rfl⟩
  · rw [links, on, Link.softReset_enabled]
  · rw [links, off, Link.softReset_disabled]
  · rw [State.slot, rings]
    have slot := PerSlot.get_map Slot.softReset ((s.ring c).afterLink (s.link c)).slots j
    exact ⟨congrArg Slot.state slot, congrArg Slot.pins slot, congrArg Slot.record slot⟩
  · rw [rings]; rfl
  · rw [rings]; exact Ring.afterLink_seqCounter _ _
  · rw [rings]; exact Ring.afterLink_received _ _
  · rw [rings, Ring.softReset_aborted_empty empty]
  · rw [rings, Ring.softReset_aborted_filling filling others]
  · rw [stills]
    exact ⟨rfl, rfl, rfl, rfl, rfl⟩
  · rw [rest]; rfl
  · rw [rest]; rfl
  · rw [mi]
    exact ⟨rfl, rfl, rfl, rfl, rfl, rfl, rfl, rfl, rfl, rfl, rfl, rfl, rfl, rfl⟩

end

section
/-! Parameters: codes read back, what a write stores and what it leaves, and the numbers (R40, R203, R206). -/

namespace Sys2Proof.Machine

/-! ### Codes -/

section
variable {v : Int}

theorem boolCode_decide (low : 0 ≤ v) (high : v ≤ 1) : boolCode (decide (v = 1)) = v := by
  rcases (by omega : v = 0 ∨ v = 1) with rfl | rfl <;> rfl

theorem PhaseSource.code_ofCode (low : 0 ≤ v) (high : v ≤ 2) : (PhaseSource.ofCode v).code = v := by
  rcases (by omega : v = 0 ∨ v = 1 ∨ v = 2) with rfl | rfl | rfl <;> rfl

theorem ChanMode.code_ofCode (low : 0 ≤ v) (high : v ≤ 1) : (ChanMode.ofCode v).code = v := by
  rcases (by omega : v = 0 ∨ v = 1) with rfl | rfl <;> rfl

theorem EdgeMode.code_ofCode (low : 0 ≤ v) (high : v ≤ 2) : (EdgeMode.ofCode v).code = v := by
  rcases (by omega : v = 0 ∨ v = 1 ∨ v = 2) with rfl | rfl | rfl <;> rfl

theorem IndexMode.code_ofCode (low : 0 ≤ v) (high : v ≤ 2) : (IndexMode.ofCode v).code = v := by
  rcases (by omega : v = 0 ∨ v = 1 ∨ v = 2) with rfl | rfl | rfl <;> rfl

theorem Layout.code_ofCode (low : 0 ≤ v) (high : v ≤ 1) : ((Layout.ofCode v).code : Int) = v := by
  rcases (by omega : v = 0 ∨ v = 1) with rfl | rfl <;> rfl

theorem camOfCode_num (low : 0 ≤ v) (high : v ≤ 3) : ((camOfCode v).num : Int) = v := by
  rcases (by omega : v = 0 ∨ v = 1 ∨ v = 2 ∨ v = 3) with rfl | rfl | rfl | rfl <;> rfl

theorem outOfCode_num (low : 0 ≤ v) (high : v ≤ 1) : ((outOfCode v).num : Int) = v := by
  rcases (by omega : v = 0 ∨ v = 1) with rfl | rfl <;> rfl

end

/-! ### Reading after a write -/

section
variable {v : Int}

theorem CamParams.read_write (p : CamParams) (q : CamParam) (low : q.range.1 ≤ v) (high : v ≤ q.range.2) :
    (p.write v q).read q = v := by
  cases q
  case linkEnable => exact boolCode_decide low high
  case tapGate => exact boolCode_decide low high
  case phaseSource => exact PhaseSource.code_ofCode low high
  case tapOverride => rfl
  case exposureDelay => rfl
  all_goals exact Int.toNat_of_nonneg (le_trans (by decide) low)

theorem ChanParams.read_write (p : ChanParams) (q : ChanParam) (low : q.range.1 ≤ v) (high : v ≤ q.range.2) :
    (p.write v q).read q = v := by
  cases q
  case enable => exact boolCode_decide low high
  case hysteresis => exact boolCode_decide low high
  case captureHold => exact boolCode_decide low high
  case clearMode => exact boolCode_decide low high
  case mode => exact ChanMode.code_ofCode low high
  case edge => exact EdgeMode.code_ofCode low high
  case indexMode => exact IndexMode.code_ofCode low high
  case indexValue => rfl
  case outThreshold => rfl
  case inThreshold => rfl
  all_goals exact Int.toNat_of_nonneg (le_trans (by decide) low)

theorem OutParams.read_write (p : OutParams) (q : OutParam) (low : q.range.1 ≤ v) (high : v ≤ q.range.2) :
    (p.write v q).read q = v := by
  cases q
  case defaultLayout => exact Layout.code_ofCode low high
  case defaultCamA => exact camOfCode_num low high
  case defaultCamB => exact camOfCode_num low high
  case rasterRate => exact Int.toNat_of_nonneg (le_trans (by decide) low)

/-- A value within its parameter's range reads back as it was written. -/
theorem Params.read_write (p : Params) (id : ParamId) (low : id.range.1 ≤ v) (high : v ≤ id.range.2) :
    (p.write id v).read id = v := by
  cases id with
  | cam c q =>
    have set : (p.write (.cam c q) v).cams.get c = (p.cams.get c).write v q := (PerCam.get_set _ _ _ _).trans (if_pos rfl)
    exact (congrArg (CamParams.read · q) set).trans ((p.cams.get c).read_write q low high)
  | chan e q =>
    have set : (p.write (.chan e q) v).chans.get e = (p.chans.get e).write v q :=
      (PerChan.get_set _ _ _ _).trans (if_pos rfl)
    exact (congrArg (ChanParams.read · q) set).trans ((p.chans.get e).read_write q low high)
  | out o q =>
    have set : (p.write (.out o q) v).outs.get o = (p.outs.get o).write v q := (PerOut.get_set _ _ _ _).trans (if_pos rfl)
    exact (congrArg (OutParams.read · q) set).trans ((p.outs.get o).read_write q low high)
  | augerOutput => exact outOfCode_num low high
  | augerCamera => exact camOfCode_num low high
  | nodeCode k => simpa [Params.write, Params.read] using show 0 ≤ v from low
  | maxPriority k =>
    have positive : 0 ≤ v := le_trans (show (0 : Int) ≤ 1 by decide) low
    simpa [Params.write, Params.read] using positive
  | dwell => exact Int.toNat_of_nonneg low
  | keepalive => exact Int.toNat_of_nonneg (le_trans (by decide) low)
  | augerPriority => exact Int.toNat_of_nonneg low

/-! ### What a write leaves -/

theorem CamParams.read_write_other (p : CamParams) {q r : CamParam} (other : r ≠ q) : (p.write v q).read r = p.read r := by
  cases q <;> cases r <;> trivial

/-- Of a channel's parameters a write of OUT_THRESHOLD alone reaches another one, IN_THRESHOLD (R40). -/
theorem ChanParams.read_write_other (p : ChanParams) {q r : ChanParam} (other : r ≠ q)
    (kept : q = .outThreshold → r ≠ .inThreshold) : (p.write v q).read r = p.read r := by
  cases q
  case outThreshold =>
    have inner := kept rfl
    cases r <;> trivial
  all_goals cases r <;> trivial

theorem OutParams.read_write_other (p : OutParams) {q r : OutParam} (other : r ≠ q) : (p.write v q).read r = p.read r := by
  cases q <;> cases r <;> trivial

/-- Every parameter but the one written reads as before, except IN_THRESHOLD after a write of its OUT_THRESHOLD. -/
theorem Params.read_write_other (p : Params) {id j : ParamId} (other : j ≠ id)
    (kept : ∀ e, id = .chan e .outThreshold → j ≠ .chan e .inThreshold) : (p.write id v).read j = p.read j := by
  cases id with
  | cam c q =>
    cases j with
    | cam d r =>
      change ((p.cams.set c _).get d).read r = _
      rw [PerCam.get_set]
      split
      · rename_i same
        subst same
        exact CamParams.read_write_other _ (fun h => other (by rw [h]))
      · rfl
    | _ => rfl
  | chan e q =>
    cases j with
    | chan g r =>
      change ((p.chans.set e _).get g).read r = _
      rw [PerChan.get_set]
      split
      · rename_i same
        subst same
        exact ChanParams.read_write_other _ (fun h => other (by rw [h])) (fun h inner => kept g (by rw [h]) (by rw [inner]))
      · rfl
    | _ => rfl
  | out o q =>
    cases j with
    | out x r =>
      change ((p.outs.set o _).get x).read r = _
      rw [PerOut.get_set]
      split
      · rename_i same
        subst same
        exact OutParams.read_write_other _ (fun h => other (by rw [h]))
      · rfl
    | _ => rfl
  | nodeCode k =>
    cases j with
    | nodeCode m =>
      have apart : m ≠ k := fun h => other (by rw [h])
      simp [Params.read, Params.write, apart]
    | _ => rfl
  | maxPriority k =>
    cases j with
    | maxPriority m =>
      have apart : m ≠ k := fun h => other (by rw [h])
      simp [Params.read, Params.write, apart]
    | _ => rfl
  | dwell => cases j <;> trivial
  | keepalive => cases j <;> trivial
  | augerOutput => cases j <;> trivial
  | augerCamera => cases j <;> trivial
  | augerPriority => cases j <;> trivial

/-- Storing OUT_THRESHOLD keeps IN_THRESHOLD below it (R40). -/
theorem Params.read_inThreshold_write_outThreshold (p : Params) (e : ChanId) : (p.write (.chan e .outThreshold) v).read
    (.chan e .inThreshold) = min (p.chans.get e).inThreshold (v - 1) := by
  change ((p.chans.set e _).get e).inThreshold = _
  rw [PerChan.get_set, if_pos rfl]
  rfl

end

/-! ### Numbers (R203) -/

theorem paramOf_number (id : ParamId) : paramOf id.number = some id := by
  cases id with
  | cam c q => cases c <;> cases q <;> rfl
  | chan e q => cases e <;> cases q <;> rfl
  | out o q => cases o <;> cases q <;> rfl
  | nodeCode k => cases k <;> rfl
  | maxPriority k => cases k <;> rfl
  | _ => rfl

theorem ParamId.word_toNat (id : ParamId) : id.word.toNat = id.number := by
  cases id with
  | cam c q => cases c <;> cases q <;> rfl
  | chan e q => cases e <;> cases q <;> rfl
  | out o q => cases o <;> cases q <;> rfl
  | nodeCode k => cases k <;> rfl
  | maxPriority k => cases k <;> rfl
  | _ => rfl

theorem State.named_word (s : State) (id : ParamId) : s.named id.word = .writable id := by
  rw [State.named, id.word_toNat, paramOf_number]

/-- A row that writes one parameter is the PARAM WRITE of that parameter's number. -/
theorem paramMessage_eq_paramWriteMessage (node : Byte) (id : ParamId) (value : BitVec 32) :
    paramMessage node id value = paramWriteMessage node id.word value := by
  funext s
  unfold paramMessage paramWriteMessage
  congr 1
  funext k u
  rw [State.named_word]

/-! ### The value a write stores (R40, R206) -/

theorem CamParam.range_le (q : CamParam) : q.range.1 ≤ q.range.2 := by cases q <;> decide
theorem ChanParam.range_le (q : ChanParam) : q.range.1 ≤ q.range.2 := by cases q <;> decide
theorem OutParam.range_le (q : OutParam) : q.range.1 ≤ q.range.2 := by cases q <;> decide

theorem ParamId.range_le (id : ParamId) : id.range.1 ≤ id.range.2 := by
  cases id with
  | cam _ q => exact q.range_le
  | chan _ q => exact q.range_le
  | out _ q => exact q.range_le
  | nodeCode => exact show (0 : Int) ≤ 254 by decide
  | maxPriority => exact show (1 : Int) ≤ 7 by decide
  | _ => decide

theorem ParamId.clampTo_bounds (id : ParamId) (v : Int) : id.range.1 ≤ id.clampTo v ∧ id.clampTo v ≤ id.range.2 :=
  clamp_bounds v _ _ id.range_le

/-- What a write of `v` stores: three parameters have a rule of their own, every other value is brought into its range. -/
theorem Params.fit_cases (p : Params) (id : ParamId) (v : Int) :
    (∃ c, id = .cam c .nominalX ∧ p.fit id v = id.clampTo v - id.clampTo v % 2) ∨
    (∃ o, id = .out o .rasterRate ∧ p.fit id v = if v < 55 then 50 else 60) ∨
    (∃ e, id = .chan e .inThreshold ∧ p.fit id v = min (id.clampTo v) ((p.chans.get e).outThreshold - 1)) ∨
    p.fit id v = id.clampTo v := by
  unfold Params.fit
  split
  · exact .inl ⟨_, rfl, rfl⟩
  · exact .inr (.inl ⟨_, rfl, rfl⟩)
  · exact .inr (.inr (.inl ⟨_, rfl, rfl⟩))
  · exact .inr (.inr (.inr rfl))

/-- The parameters without a rule of their own. -/
theorem Params.fit_plain (p : Params) (id : ParamId) (v : Int) (notX : ∀ c, id ≠ .cam c .nominalX)
    (notRate : ∀ o, id ≠ .out o .rasterRate) (notInner : ∀ e, id ≠ .chan e .inThreshold) :
    p.fit id v = id.clampTo v := by
  rcases p.fit_cases id v with ⟨c, h, -⟩ | ⟨o, h, -⟩ | ⟨e, h, -⟩ | fit
  · exact absurd h (notX c)
  · exact absurd h (notRate o)
  · exact absurd h (notInner e)
  · exact fit

theorem Params.fit_bounds {p : Params} (h : p.InRange) (id : ParamId) (v : Int) :
    id.range.1 ≤ p.fit id v ∧ p.fit id v ≤ id.range.2 := by
  obtain ⟨low, high⟩ := id.clampTo_bounds v
  rcases p.fit_cases id v with ⟨c, rfl, fit⟩ | ⟨o, rfl, fit⟩ | ⟨e, rfl, fit⟩ | fit <;> rw [fit]
  · change (0 : Int) ≤ _ at low
    change _ ≤ (96 : Int) at high
    change (0 : Int) ≤ _ ∧ _ ≤ (96 : Int)
    omega
  · change (50 : Int) ≤ _ ∧ _ ≤ (60 : Int)
    split <;> decide
  · obtain ⟨outLow, -⟩ := h.1 (.chan e .outThreshold)
    change (-8388607 : Int) ≤ (p.chans.get e).outThreshold at outLow
    change (-8388608 : Int) ≤ _ at low
    change _ ≤ (8388606 : Int) at high
    change (-8388608 : Int) ≤ _ ∧ _ ≤ (8388606 : Int)
    omega
  · exact ⟨low, high⟩

/-- A stored value reads back. -/
theorem Params.read_write_fit {p : Params} (h : p.InRange) (id : ParamId) (v : Int) :
    (p.write id (p.fit id v)).read id = p.fit id v :=
  have ⟨low, high⟩ := p.fit_bounds h id v
  p.read_write id low high

/-! ### A stored write keeps the parameters within their ranges (R203, R206) -/

section
variable {p : Params} (h : p.InRange) (id : ParamId) (v : Int)
include h

theorem Params.read_write_bounds (j : ParamId) :
    j.range.1 ≤ (p.write id (p.fit id v)).read j ∧ (p.write id (p.fit id v)).read j ≤ j.range.2 := by
  obtain ⟨low, high⟩ := p.fit_bounds h id v
  by_cases same : j = id
  · subst same
    rw [p.read_write_fit h]
    exact ⟨low, high⟩
  · by_cases lowered : ∃ e, id = .chan e .outThreshold ∧ j = .chan e .inThreshold
    · obtain ⟨e, rfl, rfl⟩ := lowered
      obtain ⟨innerLow, innerHigh⟩ := h.1 (.chan e .inThreshold)
      rw [Params.read_inThreshold_write_outThreshold]
      change (-8388608 : Int) ≤ (p.chans.get e).inThreshold at innerLow
      change (p.chans.get e).inThreshold ≤ (8388606 : Int) at innerHigh
      change (-8388607 : Int) ≤ _ at low
      change (-8388608 : Int) ≤ _ ∧ _ ≤ (8388606 : Int)
      omega
    · rw [p.read_write_other same (fun e out inner => lowered ⟨e, out, inner⟩)]
      exact h.1 j

theorem Params.write_nominalX_even (c : CamId) : ((p.write id (p.fit id v)).cams.get c).nominalX % 2 = 0 := by
  have reads (w : Params) : w.read (.cam c .nominalX) = ((w.cams.get c).nominalX : Int) := rfl
  by_cases same : id = .cam c .nominalX
  · subst same
    have back := p.read_write_fit h (.cam c .nominalX) v
    have fit : p.fit (.cam c .nominalX) v = (ParamId.cam c .nominalX).clampTo v - (ParamId.cam c .nominalX).clampTo v % 2 :=
      rfl
    rw [reads] at back
    omega
  · have back := p.read_write_other (v := p.fit id v) (j := .cam c .nominalX) (Ne.symm same) (fun e out => nofun)
    have even := h.2.1 c
    rw [reads, reads] at back
    omega

theorem Params.write_rasterRate (o : OutId) : ((p.write id (p.fit id v)).outs.get o).rasterRate = 50 ∨
    ((p.write id (p.fit id v)).outs.get o).rasterRate = 60 := by
  have reads (w : Params) : w.read (.out o .rasterRate) = ((w.outs.get o).rasterRate : Int) := rfl
  by_cases same : id = .out o .rasterRate
  · subst same
    have back := p.read_write_fit h (.out o .rasterRate) v
    have fit : p.fit (.out o .rasterRate) v = if v < 55 then 50 else 60 := rfl
    rw [reads] at back
    split at fit <;> omega
  · have back := p.read_write_other (v := p.fit id v) (j := .out o .rasterRate) (Ne.symm same) (fun e out => nofun)
    have rate := h.2.2.1 o
    rw [reads, reads] at back
    omega

theorem Params.write_thresholds (e : ChanId) : ((p.write id (p.fit id v)).chans.get e).inThreshold <
    ((p.write id (p.fit id v)).chans.get e).outThreshold := by
  have outer (w : Params) : w.read (.chan e .outThreshold) = (w.chans.get e).outThreshold := rfl
  have inner (w : Params) : w.read (.chan e .inThreshold) = (w.chans.get e).inThreshold := rfl
  have below := h.2.2.2 e
  rw [← outer, ← inner] at below ⊢
  by_cases out : id = .chan e .outThreshold
  · subst out
    rw [p.read_write_fit h, Params.read_inThreshold_write_outThreshold]
    omega
  · rw [p.read_write_other (j := .chan e .outThreshold) (Ne.symm out) (fun g _ => nofun)]
    by_cases inn : id = .chan e .inThreshold
    · subst inn
      rw [p.read_write_fit h]
      have fit : p.fit (.chan e .inThreshold) v = min ((ParamId.chan e .inThreshold).clampTo v)
        ((p.chans.get e).outThreshold - 1) := rfl
      rw [← outer] at fit
      omega
    · rw [p.read_write_other (j := .chan e .inThreshold) (Ne.symm inn)
        (fun g written read => out (written.trans (by cases read; rfl)))]
      exact below

theorem Params.write_inRange : (p.write id (p.fit id v)).InRange :=
  ⟨p.read_write_bounds h id v, p.write_nominalX_even h id v, p.write_rasterRate h id v, p.write_thresholds h id v⟩

end

theorem Params.clampsWrite_iff (p : Params) (id : ParamId) (v : Int) : p.clampsWrite id v = true ↔
    p.fit id v ≠ v ∨ ∃ e, id = .chan e .outThreshold ∧ p.fit id v ≤ (p.chans.get e).inThreshold := by
  unfold Params.clampsWrite
  rw [Bool.or_eq_true, decide_eq_true_iff]
  split
  · simp
  · rename_i other
    simp only [Bool.false_eq_true, or_false]
    exact (or_iff_left (fun ⟨e, out, _⟩ => other e out)).symm

/-! ### HOLD_LIMIT (R78) -/

theorem State.takes_holdLimit (s : State) (c : CamId) : s.Takes (.cam c .holdLimit) :=
  ⟨fun h => absurd (h : false = true) Bool.false_ne_true, rfl⟩

theorem State.stored_holdLimit (s : State) (c : CamId) (v : Int) :
    ((s.stored (.cam c .holdLimit) v).camParams c).holdLimit = (clamp v 0 120).toNat := by
  unfold State.stored State.camParams Params.write
  rw [PerCam.get_set, if_pos rfl]
  rfl

/-- A write of HOLD_LIMIT lowers a rejected-run above the stored limit to it. -/
theorem State.storeParam_holdLimit (s : State) (c : CamId) (v : Int) : s.storeParam (.cam c .holdLimit) v =
    (s.stored (.cam c .holdLimit) v).setScreen c { s.screen c with
      rejectedRun := min (s.screen c).rejectedRun (clamp v 0 120).toNat } := by
  rw [← s.stored_holdLimit c v]
  rfl

/-- A write with which the reference offers a tap is the PARAM WRITE in the state in which it offers that tap. -/
theorem offered_paramMessage {s : State} (running : s.held = false) (onBus : s.mi.onBus = true) (node : Byte)
    (id : ParamId) (value : BitVec 32) (c : CamId) (offered : Tap) :
    event (onReceipt (fun u => paramMessage node id value (u.setOffered c offered))) s =
      exec (.paramWrite node id.word value) (s.setOffered c offered) := by
  have running' : (s.setOffered c offered).held = false := running
  have onBus' : (s.setOffered c offered).mi.onBus = true := onBus
  rw [event_running running, onReceipt_onBus onBus, paramMessage_eq_paramWriteMessage]
  simp only [exec, execParamWrite]
  rw [event_running running', onReceipt_onBus onBus']
  rfl

end Sys2Proof.Machine

open Sys2Proof Sys2Proof.Machine

/-- Settles O53: the value stored by the parameter's rule, read back after the write; each row is the PARAM WRITE of its
number, and HOLD_LIMIT reaches the screen. -/
theorem storedValuesAndParameterRows : Obligations.StoredValuesAndParameterRows := by
  unfold Obligations.StoredValuesAndParameterRows
  refine ⟨fun p id v h => ?_, fun s node c e j value offered => ?_⟩
  · refine ⟨p.fit_bounds h id v, p.fit_plain id v, fun n x => ?_, fun o rate => ?_, fun g inner => ?_,
      p.clampsWrite_iff id v, p.read_write_fit h id v, fun j other kept => p.read_write_other other kept,
      fun g out => ?_, paramOf_number id, id.word_toNat⟩
    · subst x
      change clamp v 0 96 - clamp v 0 96 % 2 = if clamp v 0 96 % 2 = 0 then clamp v 0 96 else clamp v 0 96 - 1
      split <;> omega
    · subst rate
      rfl
    · subst inner
      change min (clamp v _ _) _ = if (p.chans.get g).outThreshold ≤ clamp v _ _ then _ else clamp v _ _
      split <;> omega
    · subst out
      rw [Params.read_inThreshold_write_outThreshold]
      split <;> omega
  · have row (id : ParamId) : event (onReceipt (paramMessage node id value)) s = exec (.paramWrite node id.word value) s := by
      rw [paramMessage_eq_paramWriteMessage]
      rfl
    refine ⟨⟨row _, row _, row _, fun running onBus => ⟨offered_paramMessage running onBus node _ value c offered,
      offered_paramMessage running onBus node _ value c offered⟩⟩, ⟨row _, row _, row _, row _, row _, row _⟩,
      ⟨row _, row _, row _, row _, row _, row _, row _⟩, fun k hears => ⟨State.stored_holdLimit _ c _, ?_⟩⟩
    exact (param_known hears (s.takes_holdLimit c) value).trans (by rw [State.storeParam_holdLimit]; rfl)

end

section
/-! Encoder channels: what a change of a channel sets off, and what each operation makes of the channel (R24–R46). -/

namespace Sys2Proof.Machine

variable {s : State} {e : ChanId}

/-! ### What a change sets off (R39, R46) -/

/-- Of the auger states only a change to OUT with AUGER_PRIORITY above 0, and one from OUT, reach the arbiter. -/
theorem State.augerChanged_quiet {old new : AugerState} (quiet : new = old ∨ (new ≠ .outside ∧ old ≠ .outside) ∨
    (new = .outside ∧ s.params.augerPriority = 0)) : s.augerChanged old new = s := by
  unfold State.augerChanged
  rcases quiet with rfl | ⟨new, old⟩ | ⟨rfl, zero⟩
  · rw [if_neg (fun h => h.2 h.1), if_neg (fun h => h.2 h.1)]
  · rw [if_neg (fun h => new h.1), if_neg (fun h => old h.1)]
  · rw [zero, if_neg (lt_irrefl 0)]
    split
    · rfl
    · exact if_neg (fun h => h.2 rfl)

/-- A channel whose state and auger state stay sets off nothing. -/
theorem State.changeChannel_quiet {ch : Channel} (state : ch.state = (s.channel e).state)
    (auger : ch.auger = (s.channel e).auger) : s.changeChannel e ch = s.setChannel e ch := by
  unfold State.changeChannel
  dsimp only
  have same : ¬((s.channel e).state ≠ ch.state ∨ (s.channel e).auger ≠ ch.auger) := by rw [state, auger]; simp
  rw [if_neg same, State.augerChanged_quiet (.inl auger), ite_self]

/-- A channel whose state or auger state changes is reported, and channel 2 signals its auger state. -/
theorem State.changeChannel_reported {ch : Channel}
    (changed : ch.state ≠ (s.channel e).state ∨ ch.auger ≠ (s.channel e).auger) : s.changeChannel e ch =
      if e = .ec2 then ((s.setChannel e ch).ask (.encoderReport e)).augerChanged (s.channel e).auger ch.auger
      else (s.setChannel e ch).ask (.encoderReport e) := by
  unfold State.changeChannel
  dsimp only
  rw [if_pos (changed.imp Ne.symm Ne.symm)]

theorem State.changeChannel_channels (s : State) (e : ChanId) (ch : Channel) :
    (s.changeChannel e ch).channels = s.channels.set e ch := by
  by_cases quiet : ch.state = (s.channel e).state ∧ ch.auger = (s.channel e).auger
  · rw [State.changeChannel_quiet quiet.1 quiet.2]
    rfl
  · rw [State.changeChannel_reported (not_and_or.mp quiet)]
    split
    · exact ((State.ViewFrame.refl _).augerChanged _ _).channels
    · rfl

/-! ### The auger state (R39) -/

/-- An auger state evaluated: OUT is left at IN_THRESHOLD, and entered at OUT_THRESHOLD. -/
theorem augerEvaluated_eq (p : ChanParams) (position : Int) (now : AugerState) : augerEvaluated p position now =
    if now = .outside then if position ≤ p.inThreshold then .inside else .outside
    else if p.outThreshold ≤ position then .outside else .inside := by
  cases now <;> rfl

theorem Channel.evalAuger_eq (ch : Channel) (p : ChanParams) : ch.evalAuger p = { ch with
    auger := if p.mode = .linear ∧ ch.state = .homed then augerEvaluated p ch.position ch.auger else ch.auger } := by
  unfold Channel.evalAuger
  split <;> rfl

theorem Channel.evalAuger_of {ch : Channel} {p : ChanParams} {x : AugerState}
    (evaluated : augerEvaluated p ch.position ch.auger = x) :
    ch.evalAuger p = { ch with auger := if p.mode = .linear ∧ ch.state = .homed then x else ch.auger } := by
  rw [Channel.evalAuger_eq, evaluated]

/-! ### Counts (R25–R28, R36) -/

theorem Dir.step_eq (d : Dir) (n : Int) : n + d.step = if d = .up then n + 1 else n - 1 := by
  cases d <;> rfl

/-- A count applied to the position reaches the position and the saturation count alone. -/
theorem Channel.applyCount_rest (ch : Channel) (p : ChanParams) (d : Dir) : ch.applyCount p d = { ch with
    position := (ch.applyCount p d).position, saturationCount := (ch.applyCount p d).saturationCount } := by
  unfold Channel.applyCount
  cases p.mode with
  | modular => rfl
  | linear =>
    dsimp only
    split
    · rfl
    · split <;> rfl

/-- An evaluated count: one against the last direction sets the mark, drops a RUNNING channel to HOMED, and is suppressed by
HYSTERESIS. -/
theorem Channel.count_eq (ch : Channel) (p : ChanParams) (d : Dir) : ch.count p d =
    { ch with
      position := if decide (d ≠ ch.lastDir) && p.hysteresis then ch.position else (ch.applyCount p d).position
      saturationCount := if decide (d ≠ ch.lastDir) && p.hysteresis then ch.saturationCount
        else (ch.applyCount p d).saturationCount
      lastDir := d
      dirChange := ch.dirChange || decide (d ≠ ch.lastDir)
      state := if decide (d ≠ ch.lastDir) && decide (ch.state = .running) then .homed else ch.state
      period := if decide (d ≠ ch.lastDir) && decide (ch.state = .running) then none else ch.period } := by
  unfold Channel.count
  by_cases along : d = ch.lastDir
  · rw [if_pos along, Channel.applyCount_rest]
    simp [along]
  · have reversed : ch.reverse = { ch with
        dirChange := true
        state := if ch.state = .running then .homed else ch.state
        period := if ch.state = .running then none else ch.period } := by
      unfold Channel.reverse
      split <;> rfl
    have position : (ch.reverse.applyCount p d).position = (ch.applyCount p d).position ∧
        (ch.reverse.applyCount p d).saturationCount = (ch.applyCount p d).saturationCount := by
      rw [reversed]
      unfold Channel.applyCount
      cases p.mode with
      | modular => exact ⟨rfl, rfl⟩
      | linear =>
        dsimp only
        split
        · exact ⟨rfl, rfl⟩
        · split <;> exact ⟨rfl, rfl⟩
    cases suppressed : p.hysteresis
    · rw [if_neg along, if_neg Bool.false_ne_true, Channel.applyCount_rest ch.reverse, position.1, position.2, reversed]
      simp [along]
    · rw [if_neg along, if_pos rfl, reversed]
      simp [along]

/-- Whether a count saturates: at the end of the LINEAR range that it leads to (R28). -/
def Channel.saturates (ch : Channel) (p : ChanParams) (d : Dir) : Bool :=
  decide (p.mode = .linear ∧ ch.position = if d = .up then 8388607 else -8388608)

section
variable {ch : Channel} {p : ChanParams}

theorem Channel.applyCount_saturates {d : Dir} (h : ch.saturates p d = true) :
    (ch.applyCount p d).position = ch.position ∧ (ch.applyCount p d).saturationCount = bump ch.saturationCount := by
  obtain ⟨linear, position⟩ := of_decide_eq_true h
  cases d <;> simp [Channel.applyCount, linear, position, Dir.step, linearMin, linearMax]

variable (ok : ch.PositionOk p)
include ok

theorem Channel.applyCount_linear {d : Dir} (linear : p.mode = .linear) (h : ch.saturates p d = false) :
    (ch.applyCount p d).position = ch.position + d.step ∧ (ch.applyCount p d).saturationCount = ch.saturationCount := by
  unfold Channel.PositionOk at ok
  simp only [linear, linearMin, linearMax] at ok
  have inside : ¬ch.position + d.step < -8388608 ∧ ¬8388607 < ch.position + d.step := by
    simp only [Channel.saturates, linear, true_and, decide_eq_false_iff_not] at h
    cases d <;> simp [Dir.step] at h ⊢ <;> omega
  simp [Channel.applyCount, linear, linearMin, linearMax, inside]

/-- A MODULAR position wraps (R27). -/
theorem Channel.applyCount_modular (modular : p.mode = .modular) (d : Dir) :
    (ch.applyCount p d).position = (if d = .up ∧ ch.position = p.cpr - 1 then 0
      else if d = .down ∧ ch.position = 0 then (p.cpr : Int) - 1 else ch.position + d.step : Int) ∧
    (ch.applyCount p d).saturationCount = ch.saturationCount := by
  unfold Channel.PositionOk at ok
  simp only [modular] at ok
  obtain ⟨low, high⟩ := ok
  have wrapped : (ch.applyCount p d) = { ch with position := wrapCount p.cpr ch.position d.step } := by
    simp only [Channel.applyCount, modular]
  rw [wrapped]
  refine ⟨?_, rfl⟩
  change (ch.position + d.step) % (p.cpr : Int) = _
  split
  · rename_i top
    rw [top.1, top.2]
    exact (congrArg (· % (p.cpr : Int)) (sub_add_cancel _ _)).trans Int.emod_self
  · split
    · rename_i bottom
      rw [bottom.1, bottom.2, ← Int.add_emod_right]
      exact Int.emod_eq_of_lt (by simp only [Dir.step]; omega) (by simp only [Dir.step]; omega)
    · have inside : 0 ≤ ch.position + d.step ∧ ch.position + d.step < p.cpr := by
        cases d <;> simp only [Dir.step, true_and, reduceCtorEq, false_and] at * <;> omega
      exact Int.emod_eq_of_lt inside.1 inside.2

/-- Where an applied count leaves the position (R27, R28). -/
theorem Channel.applyCount_position (d : Dir) : (ch.applyCount p d).position = (if ch.saturates p d then ch.position
    else if p.mode = .modular ∧ d = .up ∧ ch.position = p.cpr - 1 then 0
    else if p.mode = .modular ∧ d = .down ∧ ch.position = 0 then (p.cpr : Int) - 1
    else if d = .up then ch.position + 1 else ch.position - 1 : Int) := by
  cases saturates : ch.saturates p d
  · rw [← Dir.step_eq]
    cases mode : p.mode with
    | modular => simp only [(Channel.applyCount_modular ok mode d).1, true_and, Bool.false_eq_true, if_false]
    | linear =>
      simp only [(Channel.applyCount_linear ok mode saturates).1, reduceCtorEq, false_and, Bool.false_eq_true, if_false]
  · rw [(Channel.applyCount_saturates saturates).1, if_pos rfl]

theorem Channel.applyCount_saturationCount (d : Dir) : (ch.applyCount p d).saturationCount =
    if ch.saturates p d then bump ch.saturationCount else ch.saturationCount := by
  cases saturates : ch.saturates p d
  · cases mode : p.mode with
    | modular => exact (Channel.applyCount_modular ok mode d).2
    | linear => exact (Channel.applyCount_linear ok mode saturates).2
  · exact (Channel.applyCount_saturates saturates).2

/-- An applied count keeps the position within its mode's range. -/
theorem Channel.applyCount_positionOk (d : Dir) : (ch.applyCount p d).PositionOk p := by
  have moved := Channel.applyCount_position ok d
  unfold Channel.PositionOk at ok ⊢
  cases mode : p.mode with
  | modular =>
    simp only [mode] at ok ⊢
    simp only [Channel.saturates, mode, reduceCtorEq, false_and, decide_false, Bool.false_eq_true, if_false, true_and]
      at moved
    rw [moved]
    cases d <;> simp only [true_and, reduceCtorEq, false_and, if_false, if_true] <;> split <;> omega
  | linear =>
    simp only [mode, linearMin, linearMax] at ok ⊢
    simp only [Channel.saturates, mode, reduceCtorEq, false_and, if_false, true_and, decide_eq_true_iff] at moved
    rw [moved]
    cases d <;> simp only [reduceCtorEq, if_false, if_true] <;> split <;> omega

end

/-! ### Edges of A and B (R24, R25) -/

/-- The channel with new accepted levels of A and B. -/
def Channel.tracked (ch : Channel) (a b : Bool) : Channel := { ch with levels := { ch.levels with a := a, b := b } }

section
variable {ch : Channel} {p : ChanParams} {a b : Bool}

theorem Channel.quadrature_still (sameA : a = ch.levels.a) (sameB : b = ch.levels.b) :
    ch.quadrature p a b = ch.tracked a b := by
  simp [Channel.quadrature, Channel.tracked, sameA, sameB]

theorem Channel.quadrature_both (newA : a ≠ ch.levels.a) (newB : b ≠ ch.levels.b) :
    ch.quadrature p a b = { ch.tracked a b with quadErrorCount := bump ch.quadErrorCount } := by
  simp [Channel.quadrature, Channel.tracked, newA, newB]

/-- EDGE evaluates every edge, every edge of A, or the rising edges of A alone. -/
theorem EdgeMode.evaluates_iff (m : EdgeMode) (onA level : Bool) :
    m.evaluates onA level = true ↔ m = .x4 ∨ (onA = true ∧ (m = .x2 ∨ level = true)) := by
  cases m <;> simp [EdgeMode.evaluates]

/-- An edge of one input: counted when EDGE evaluates it. -/
theorem Channel.quadrature_one {onA : Bool} (changedA : (a != ch.levels.a) = onA) (changedB : (b != ch.levels.b) = !onA) :
    ch.quadrature p a b = if p.edge.evaluates onA (if onA then a else b) = true then
      ((ch.tracked a b).count p (edgeDir onA a b)).evalAuger p else ch.tracked a b := by
  simp only [Channel.quadrature, changedA, changedB, Bool.and_not_self, Bool.or_not_self, Bool.false_eq_true, if_false,
    if_true]
  rfl

variable (one : (a ≠ ch.levels.a ∨ b ≠ ch.levels.b) ∧ ¬(a ≠ ch.levels.a ∧ b ≠ ch.levels.b))
include one

theorem Channel.changed_of_one : (b != ch.levels.b) = !(a != ch.levels.a) := by
  revert one
  cases a <;> cases ch.levels.a <;> cases b <;> cases ch.levels.b <;> decide

theorem Channel.quadrature_single : ch.quadrature p a b =
    if p.edge = .x4 ∨ (a ≠ ch.levels.a ∧ (p.edge = .x2 ∨ a = true)) then
      ((ch.tracked a b).count p (edgeDir (a != ch.levels.a) a b)).evalAuger p
    else ch.tracked a b := by
  rw [Channel.quadrature_one rfl (Channel.changed_of_one one)]
  refine if_congr ?_ rfl rfl
  rw [EdgeMode.evaluates_iff]
  by_cases onA : a = ch.levels.a
  · simp [onA]
  · simp [onA]

/-- UP is A rising with B low, B rising with A high, A falling with B high, B falling with A low (R25). -/
theorem Channel.edgeDir_eq_iff {d : Dir} (dir : d = .up ↔
    (a ≠ ch.levels.a ∧ a = true ∧ b = false) ∨ (b ≠ ch.levels.b ∧ b = true ∧ a = true) ∨
      (a ≠ ch.levels.a ∧ a = false ∧ b = true) ∨ (b ≠ ch.levels.b ∧ b = false ∧ a = false)) :
    edgeDir (a != ch.levels.a) a b = d := by
  revert one dir
  cases d <;> cases a <;> cases ch.levels.a <;> cases b <;> cases ch.levels.b <;> decide

end

theorem exec_quadratureEdge_disabled (running : s.held = false) (disabled : (s.channel e).state = .disabled)
    (a b : Bool) : exec (.quadratureEdge e a b) s = .next (takeHead (s.setChannel e ((s.channel e).tracked a b))) := by
  simp only [exec, execQuadratureEdge, event_running running]
  rw [if_pos disabled]
  rfl

theorem exec_quadratureEdge_enabled (running : s.held = false) (enabled : (s.channel e).state ≠ .disabled)
    (a b : Bool) : exec (.quadratureEdge e a b) s =
      .next (takeHead (s.changeChannel e ((s.channel e).quadrature (s.chanParams e) a b))) := by
  simp only [exec, execQuadratureEdge, event_running running, enabled, if_false]

theorem exec_quadratureEdge_quiet (running : s.held = false) (enabled : (s.channel e).state ≠ .disabled) {a b : Bool}
    {ch : Channel} (now : (s.channel e).quadrature (s.chanParams e) a b = ch) (state : ch.state = (s.channel e).state)
    (auger : ch.auger = (s.channel e).auger) :
    exec (.quadratureEdge e a b) s = .next (takeHead (s.setChannel e ch)) := by
  rw [exec_quadratureEdge_enabled running enabled, now, State.changeChannel_quiet state auger]

end Sys2Proof.Machine

open Sys2Proof Sys2Proof.Machine

/-- Settles O35, by the kind of the sample; an evaluated count is what `Channel.count_eq` and `Channel.applyCount_position`
say of it. -/
theorem quadratureEdges : Obligations.QuadratureEdges := by
  unfold Obligations.QuadratureEdges
  intro s e a b running ch p onA onB evaluated up tracked
  refine ⟨fun untouched => ?_, fun enabled newA newB => ?_, fun d enabled some notBoth counted dir ok => ?_⟩
  · by_cases disabled : ch.state = .disabled
    · exact exec_quadratureEdge_disabled running disabled a b
    · refine exec_quadratureEdge_quiet running disabled (ch := ch.tracked a b) ?_ rfl rfl
      rcases untouched.resolve_left disabled with ⟨sameA, sameB⟩ | ⟨notBoth, skipped⟩
      · exact Channel.quadrature_still (not_not.mp sameA) (not_not.mp sameB)
      · by_cases some : onA ∨ onB
        · rw [Channel.quadrature_single ⟨some, notBoth⟩, if_neg skipped]
        · exact Channel.quadrature_still (not_not.mp (fun h => some (.inl h))) (not_not.mp (fun h => some (.inr h)))
  · exact exec_quadratureEdge_quiet running enabled (Channel.quadrature_both newA newB) rfl rfl
  · have toward : edgeDir (a != ch.levels.a) a b = d := Channel.edgeDir_eq_iff ⟨some, notBoth⟩ dir
    have ok' : (ch.tracked a b).PositionOk p := ok
    have at' : (ch.tracked a b).saturates p d = ch.saturates p d := rfl
    have counts : ch.quadrature p a b = ((ch.tracked a b).count p d).evalAuger p := by
      rw [Channel.quadrature_single ⟨some, notBoth⟩, if_pos counted, toward]
    have moved := Channel.applyCount_position ok' d
    have saturated := Channel.applyCount_saturationCount ok' d
    have inside := Channel.applyCount_positionOk ok' d
    intro against suppressed saturates position state auger
    have reached : (if suppressed then ch.position else ((ch.tracked a b).applyCount p d).position) = position := by
      rw [moved]
      cases h : suppressed <;> simp only [position, h, Bool.false_or, Bool.true_or, Bool.false_eq_true, if_false, if_true]
      rfl
    refine ⟨fun modular => ?_, ?_⟩
    · rw [← reached]
      simp only [Channel.PositionOk, modular] at ok inside
      split
      · exact ok
      · exact inside
    · rw [exec_quadratureEdge_enabled running enabled, counts, Channel.evalAuger_eq, Channel.count_eq, saturated]
      refine congrArg (fun c => Host.Outcome.next (takeHead (s.changeChannel e c))) ?_
      rw [Channel.mk.injEq]
      refine ⟨rfl, reached, rfl, rfl, rfl, rfl, rfl, rfl, rfl, rfl, ?_, rfl, rfl, rfl, ?_, rfl, rfl⟩
      · refine if_congr Iff.rfl ?_ rfl
        change augerEvaluated p (if suppressed then ch.position else ((ch.tracked a b).applyCount p d).position) ch.auger = _
        rw [reached, augerEvaluated_eq]
        dsimp only [auger]
        cases ch.auger <;> rfl
      · change (if suppressed then ch.saturationCount
          else if saturates then bump ch.saturationCount else ch.saturationCount) = _
        cases suppressed <;> cases saturates <;> rfl

end

section
/-! Encoder channels: the index input, the stop watch, the encoder commands and the writes of MAX_PERIOD and the thresholds
(R29–R43). -/

namespace Sys2Proof.Machine

variable {s : State} {e : ChanId}

/-! ### The index input (R29–R35) -/

/-- The state and period that the state step of an accepted index leads to (R34). -/
def Channel.indexStep (ch : Channel) (p : ChanParams) (now : Time) (uncorrected zeroed : Bool) : ChanState × Option Nat :=
  match p.mode, ch.state with
  | .linear, .unhomed => (.homed, ch.period)
  | .linear, st => (st, ch.period)
  | .modular, .disabled => (.disabled, ch.period)
  | .modular, .unhomed => (.homed, none)
  | .modular, .stopped => (if uncorrected then .slipped else .homed, none)
  | .modular, .slipped => (if zeroed then .homed else .slipped, none)
  | .modular, _ =>
    if uncorrected then (.slipped, none) else (ch.periodTest p now).elim (.homed, none) (fun t => (.running, some t))

theorem Channel.timed_eq (ch : Channel) (period : Option Nat) : ch.timed period = { ch with
    state := (period.elim (.homed, none) (fun t => (.running, some t)) : ChanState × Option Nat).1
    period := (period.elim (.homed, none) (fun t => (.running, some t)) : ChanState × Option Nat).2 } := by
  cases period <;> rfl

theorem Channel.stateStep_eq (ch : Channel) (p : ChanParams) (now : Time) (uncorrected zeroed : Bool) :
    ch.stateStep p now uncorrected zeroed = { ch with
      state := (ch.indexStep p now uncorrected zeroed).1, period := (ch.indexStep p now uncorrected zeroed).2 } := by
  obtain ⟨state⟩ := ch
  unfold Channel.stateStep Channel.indexStep
  cases p.mode with
  | linear => cases state <;> rfl
  | modular =>
    cases state with
    | disabled => rfl
    | unhomed => rfl
    | stopped => rfl
    | slipped => rfl
    | homed =>
      cases uncorrected
      · exact Channel.timed_eq _ _
      · rfl
    | running =>
      cases uncorrected
      · exact Channel.timed_eq _ _
      · rfl

theorem Channel.capture_eq (ch : Channel) (p : ChanParams) (now : Time) : ch.capture p now = { ch with
    captureCount := if p.captureHold && ch.captureHeld then ch.captureCount else ch.position
    captureTime := if p.captureHold && ch.captureHeld then ch.captureTime else now
    captureHeld := p.captureHold } := by
  unfold Channel.capture
  cases hold : p.captureHold
  · rfl
  · cases held : ch.captureHeld
    · rfl
    · simp only [Bool.and_self, if_true]
      rw [← held]

theorem Channel.rezero_eq (ch : Channel) (p : ChanParams) : ch.rezero p = { ch with
    position := if ch.rezeros p then p.indexPosition else ch.position
    armed := ch.armed && !(ch.rezeros p && decide (p.indexMode = .once)) } := by
  unfold Channel.rezero
  cases zeroed : ch.rezeros p
  · simp
  · simp

/-- An accepted index, field by field. -/
theorem Channel.acceptIndex_eq (ch : Channel) (p : ChanParams) (now : Time) : ch.acceptIndex p now =
    Channel.evalAuger { ch with
      captureCount := if p.captureHold && ch.captureHeld then ch.captureCount else ch.position
      captureTime := if p.captureHold && ch.captureHeld then ch.captureTime else now
      captureHeld := p.captureHold
      slipCount := if ch.slips p then bump ch.slipCount else ch.slipCount
      position := if ch.rezeros p then p.indexPosition else ch.position
      armed := ch.armed && !(ch.rezeros p && decide (p.indexMode = .once))
      state := (ch.indexStep p now (ch.slips p && !ch.rezeros p) (ch.rezeros p)).1
      period := (ch.indexStep p now (ch.slips p && !ch.rezeros p) (ch.rezeros p)).2
      lastIndex := some now
      dirChange := false } p := by
  unfold Channel.acceptIndex
  dsimp only
  rw [Channel.stateStep_eq, Channel.rezero_eq, Channel.capture_eq]
  rfl

/-- The channel with a new accepted level of its index input. -/
def Channel.raised (ch : Channel) (level : Bool) : Channel := { ch with levels := { ch.levels with index := level } }

theorem exec_indexEdge_ignored (running : s.held = false) {level : Bool}
    (ignored : (s.channel e).state = .disabled ∨ ¬(level = true ∧ (s.channel e).levels.index = false)) :
    exec (.indexEdge e level) s = .next (takeHead (s.setChannel e ((s.channel e).raised level))) := by
  have unjudged : (decide ((s.channel e).state = .disabled) || !(level && !(s.channel e).levels.index)) = true := by
    rcases ignored with disabled | flat
    · simp [disabled]
    · revert flat
      cases level <;> cases (s.channel e).levels.index <;> simp
  simp only [exec, execIndexEdge, event_running running]
  exact congrArg (fun t => Host.Outcome.next (takeHead t)) (if_pos unjudged)

/-- A rising edge of an enabled channel is judged; a slip is noticed first. -/
theorem exec_indexEdge_judged (running : s.held = false) (enabled : (s.channel e).state ≠ .disabled) {slipped : Bool}
    (low : (s.channel e).levels.index = false)
    (slip : (decide ((s.chanParams e).indexMode ≠ .off) && !(s.channel e).isGlitch (s.chanParams e) s.timebase &&
      (s.channel e).slips (s.chanParams e)) = slipped) :
    exec (.indexEdge e true) s = .next (takeHead ((s.noticeRise e .encoderSlip slipped
      (bump (s.channel e).slipCount)).changeChannel e
        (((s.channel e).raised true).risingIndex (s.chanParams e) s.timebase))) := by
  subst slip
  have judged : ¬(decide ((s.channel e).state = .disabled) || !(true && !(s.channel e).levels.index)) = true := by
    simp [enabled, low]
  simp only [exec, execIndexEdge, event_running running]
  exact congrArg (fun t => Host.Outcome.next (takeHead t)) (if_neg judged)

theorem Channel.isGlitch_iff (ch : Channel) (p : ChanParams) (now : Time) : ch.isGlitch p now = true ↔
    p.mode = .modular ∧ ∃ t, ch.lastIndex = some t ∧ (now - t).toNat < p.minPeriod := by
  change _ ↔ _ ∧ ∃ t, _ ∧ elapsed t now < p.minPeriod
  unfold Channel.isGlitch
  cases p.mode <;> cases ch.lastIndex <;> simp

theorem Channel.slips_eq (ch : Channel) (p : ChanParams) : ch.slips p = (decide (p.mode = .modular) &&
    ch.lastIndex.isSome && decide ((p.slipTol : Int) <
      |(ch.position - p.indexValue + p.cpr / 2) % p.cpr - p.cpr / 2|)) := by
  unfold Channel.slips slipOf
  cases p.mode <;> cases ch.lastIndex <;> simp

theorem Channel.rezeros_eq (ch : Channel) (p : ChanParams) : ch.rezeros p =
    (decide (p.indexMode = .every) || (decide (p.indexMode = .once) && ch.armed)) := by
  unfold Channel.rezeros
  cases p.indexMode <;> simp

theorem Channel.periodTest_eq (ch : Channel) (p : ChanParams) (now : Time) : ch.periodTest p now =
    ch.lastIndex.bind (fun t =>
      if ch.dirChange = false ∧ p.minPeriod ≤ (now - t).toNat ∧ (now - t).toNat ≤ p.maxPeriod then
        some (now - t).toNat else none) := by
  change _ = ch.lastIndex.bind (fun t =>
    if ch.dirChange = false ∧ p.minPeriod ≤ elapsed t now ∧ elapsed t now ≤ p.maxPeriod then some (elapsed t now)
    else none)
  unfold Channel.periodTest
  cases ch.lastIndex <;> simp [and_assoc]

/-! ### The stop watch (R37) -/

theorem Channel.watched?_of_watches {ch : Channel} {p : ChanParams} (now : Time)
    (watches : p.mode = .modular ∧ (ch.state = .homed ∨ ch.state = .running)) {t : Time} (last : ch.lastIndex = some t) :
    ch.watched? p now = some (now - t).toNat := by
  unfold Channel.watched?
  rw [if_pos watches, last]
  rfl

theorem Channel.watched?_of_idle {ch : Channel} {p : ChanParams} (now : Time)
    (idle : ¬(p.mode = .modular ∧ (ch.state = .homed ∨ ch.state = .running)) ∨ ch.lastIndex = none) :
    ch.watched? p now = none := by
  unfold Channel.watched?
  split
  next watches =>
    rw [idle.resolve_left (not_not.mpr watches)]
    rfl
  next => rfl

theorem State.maxPeriodWritten_some {t : Nat} (watched : (s.channel e).watched? (s.chanParams e) s.timebase = some t) :
    s.maxPeriodWritten e = if (s.chanParams e).maxPeriod < t then s.stopChannel e else s := by
  unfold State.maxPeriodWritten
  rw [watched]

theorem State.maxPeriodWritten_none (watched : (s.channel e).watched? (s.chanParams e) s.timebase = none) :
    s.maxPeriodWritten e = s := by
  unfold State.maxPeriodWritten
  rw [watched]

theorem exec_stopWatchExpiry_some (running : s.held = false) {t : Nat}
    (watched : (s.channel e).watched? (s.chanParams e) s.timebase = some t) :
    exec (.stopWatchExpiry e) s =
      .next (takeHead (if (s.chanParams e).maxPeriod ≤ t then s.stopChannel e else s)) := by
  simp only [exec, execStopWatchExpiry, event_running running, watched]

theorem exec_stopWatchExpiry_none (running : s.held = false)
    (watched : (s.channel e).watched? (s.chanParams e) s.timebase = none) :
    exec (.stopWatchExpiry e) s = .next (takeHead s) := by
  simp only [exec, execStopWatchExpiry, event_running running, watched]

/-- What a stored write leaves in the parameters of the channel it is for. -/
theorem State.chanParams_stored (s : State) (e : ChanId) (q : ChanParam) (v : Int) :
    (s.stored (.chan e q) v).chanParams e = (s.chanParams e).write (s.params.fit (.chan e q) v) q :=
  (PerChan.get_set _ _ _ _).trans (if_pos rfl)

theorem State.storeParam_maxPeriod (s : State) (e : ChanId) (v : Int) :
    s.storeParam (.chan e .maxPeriod) v = (s.stored (.chan e .maxPeriod) v).maxPeriodWritten e := rfl

/-- MAX_PERIOD may be written at any time. -/
theorem State.takes_maxPeriod (s : State) (e : ChanId) : s.Takes (.chan e .maxPeriod) :=
  ⟨fun h => absurd (h : false = true) Bool.false_ne_true, rfl⟩

/-! ### Commands (R41–R43) -/

/-- The work of one bit alone. -/
theorem encoderCommands_bit0 (e : ChanId) (s : State) :
    encoderCommands e (0 ||| BitVec.twoPow 16 0) s = s.clearPosition e := rfl
theorem encoderCommands_bit1 (e : ChanId) (s : State) :
    encoderCommands e (0 ||| BitVec.twoPow 16 1) s = s.armIndex e := rfl
theorem encoderCommands_bit2 (e : ChanId) (s : State) :
    encoderCommands e (0 ||| BitVec.twoPow 16 2) s = s.releaseCapture e := rfl
theorem encoderCommands_bit3 (e : ChanId) (s : State) :
    encoderCommands e (0 ||| BitVec.twoPow 16 3) s = s.clearChannelCounts e := rfl

/-- A message whose one bit does `f` of an encoder channel. -/
theorem exec_encoderBit {node : Byte} {k : ReqSlot} (hears : s.Hears node k) (e : ChanId) (i : Nat) {f : State → State}
    (one : encoderCommands e (0 ||| BitVec.twoPow 16 i) (s.heard k) = f (s.heard k)) :
    event (onReceipt (bitCommand node (.encoder e) 0 i false)) s =
      .next (takeHead ((f (s.heard k)).ask (.requestResult node (byteOf (8 + e.num) 0) .command .ok))) :=
  (bitCommand_known hears (.encoder e) 0 i false).trans (by rw [obey, one]; rfl)

/-! ### The thresholds (R40) -/

theorem State.storeParam_outThreshold (s : State) (e : ChanId) (v : Int) :
    s.storeParam (.chan e .outThreshold) v = (s.stored (.chan e .outThreshold) v).thresholdWritten e := rfl

theorem State.storeParam_inThreshold (s : State) (e : ChanId) (v : Int) :
    s.storeParam (.chan e .inThreshold) v = (s.stored (.chan e .inThreshold) v).thresholdWritten e := rfl

theorem State.takes_threshold (s : State) (e : ChanId) {q : ChanParam} (threshold : q = .outThreshold ∨ q = .inThreshold)
    (setup : s.setup = true) : s.Takes (.chan e q) :=
  ⟨fun _ => setup, by rcases threshold with rfl | rfl <;> rfl⟩

theorem Params.clampsWrite_outThreshold (p : Params) (e : ChanId) (v : Int) :
    p.clampsWrite (.chan e .outThreshold) v = true ↔
      p.fit (.chan e .outThreshold) v ≠ v ∨ p.fit (.chan e .outThreshold) v ≤ (p.chans.get e).inThreshold := by
  rw [p.clampsWrite_iff]
  exact or_congr_right ⟨fun ⟨_, same, low⟩ => by cases same; exact low, fun low => ⟨e, rfl, low⟩⟩

theorem Params.clampsWrite_inThreshold (p : Params) (e : ChanId) (v : Int) :
    p.clampsWrite (.chan e .inThreshold) v = true ↔ p.fit (.chan e .inThreshold) v ≠ v := by
  rw [p.clampsWrite_iff]
  exact or_iff_left (fun ⟨_, same, _⟩ => by cases same)

end Sys2Proof.Machine

open Sys2Proof Sys2Proof.Machine

/-- Settles O36: an edge that is not judged, a glitch, and an accepted index by `Channel.acceptIndex_eq`. -/
theorem indexEdges : Obligations.IndexEdges := by
  unfold Obligations.IndexEdges
  intro s e level running ch p now raised rises glitch
  refine ⟨fun ignored => ?_, fun enabled risen on glitched => ?_, fun enabled risen on accepted => ?_⟩
  · by_cases unjudged : ch.state = .disabled ∨ ¬rises
    · exact exec_indexEdge_ignored running unjudged
    · obtain ⟨enabled, risen⟩ := not_or.mp unjudged
      obtain ⟨rfl, low⟩ := not_not.mp risen
      have off : p.indexMode = .off := (ignored.resolve_left enabled).resolve_left (not_not.mpr ⟨rfl, low⟩)
      have judged : (ch.raised true).risingIndex p now = ch.raised true := if_pos off
      rw [exec_indexEdge_judged running enabled low (slipped := false) (by simp [p, off]), judged]
      exact congrArg (fun t => Host.Outcome.next (takeHead t)) (State.changeChannel_quiet rfl rfl)
  · obtain ⟨rfl, low⟩ := risen
    have isGlitch : ch.isGlitch p now = true := (ch.isGlitch_iff p now).mpr glitched
    have judged : (ch.raised true).risingIndex p now =
        { ch.raised true with glitchCount := bump ch.glitchCount } := by
      unfold Channel.risingIndex
      rw [if_neg on]
      exact if_pos isGlitch
    rw [exec_indexEdge_judged running enabled low (slipped := false) (by simp [ch, p, now, isGlitch]), judged]
    exact congrArg (fun t => Host.Outcome.next (takeHead t)) (State.changeChannel_quiet rfl rfl)
  · obtain ⟨rfl, low⟩ := risen
    have notGlitch : ch.isGlitch p now = false := by
      rw [← Bool.not_eq_true, ch.isGlitch_iff p now]
      exact accepted
    have judged : (ch.raised true).risingIndex p now = (ch.raised true).acceptIndex p now := by
      unfold Channel.risingIndex
      rw [if_neg on]
      exact if_neg (Bool.not_eq_true _ ▸ notGlitch)
    intro slip slipped zeroed uncorrected keeps measured position next auger
    have slips : ch.slips p = slipped := ch.slips_eq p
    have rezeros : ch.rezeros p = zeroed := ch.rezeros_eq p
    have step : ch.indexStep p now uncorrected zeroed = next := by
      have test : ch.periodTest p now = measured := ch.periodTest_eq p now
      unfold Channel.indexStep
      rw [test]
      cases hm : p.mode <;> cases hs : ch.state <;> simp only [next, hm, hs]
    have slipNoticed : (decide (p.indexMode ≠ .off) && !ch.isGlitch p now && ch.slips p) = slipped := by
      simp only [notGlitch, slips, decide_eq_true on, Bool.not_false, Bool.true_and]
    rw [exec_indexEdge_judged running enabled low slipNoticed, judged, Channel.acceptIndex_eq, Channel.evalAuger_eq]
    have moved : (if ch.rezeros p then p.indexPosition else ch.position) = position := by
      rw [rezeros]
      rfl
    have stepped : (ch.raised true).indexStep p now (ch.slips p && !ch.rezeros p) (ch.rezeros p) = next := by
      rw [slips, rezeros]
      exact step
    refine congrArg (fun c => Host.Outcome.next (takeHead ((s.noticeRise e .encoderSlip slipped
      (bump ch.slipCount)).changeChannel e c))) ?_
    rw [Channel.mk.injEq]
    refine ⟨congrArg Prod.fst stepped, moved, rfl, rfl, ?_, rfl, rfl, rfl, rfl, congrArg Prod.snd stepped, ?_, ?_, rfl, rfl,
      rfl, rfl, rfl⟩
    · exact congrArg (fun z => ch.armed && !(z && decide (p.indexMode = .once))) rezeros
    · refine if_congr (by rw [← congrArg Prod.fst stepped]; rfl) ?_ rfl
      change augerEvaluated p (if ch.rezeros p then p.indexPosition else ch.position) ch.auger = _
      rw [moved, augerEvaluated_eq]
      dsimp only [auger]
      cases ch.auger <;> rfl
    · exact if_congr (by rw [← slips]; rfl) rfl rfl

/-- Settles O37, by what the stop watch shows, before the write and after it. -/
theorem stopWatch : Obligations.StopWatch := by
  unfold Obligations.StopWatch
  intro s e p stops watches
  refine ⟨fun running t watching last => ?_, fun running idle => ?_, fun node k value hears => ?_⟩
  · have expiry := exec_stopWatchExpiry_some running (Channel.watched?_of_watches s.timebase watching last)
    exact ⟨fun passed => expiry.trans (by rw [if_pos passed]; rfl),
      fun left => expiry.trans (by rw [if_neg (Nat.not_le.mpr left)])⟩
  · exact exec_stopWatchExpiry_none running (Channel.watched?_of_idle s.timebase idle)
  · intro u answered
    have params : u.chanParams e = { p with maxPeriod := (clamp value.toInt 100000 4000000).toNat } :=
      (s.heard k).chanParams_stored e .maxPeriod value.toInt
    have written : exec (.maxPeriod node e value) s = answered (u.maxPeriodWritten e) :=
      param_known hears (s.takes_maxPeriod e) value
    refine ⟨congrArg ChanParams.maxPeriod params, fun t watching last => ?_, fun idle => ?_⟩
    · have watched : (u.channel e).watched? (u.chanParams e) u.timebase = some (s.timebase - t).toNat := by
        rw [params]
        exact Channel.watched?_of_watches s.timebase watching last
      rw [written, State.maxPeriodWritten_some watched, params]
      exact ⟨fun passed => congrArg answered (if_pos passed), fun left => congrArg answered (if_neg (Nat.not_lt.mpr left))⟩
    · have watched : (u.channel e).watched? (u.chanParams e) u.timebase = none := by
        rw [params]
        exact Channel.watched?_of_idle s.timebase idle
      rw [written, State.maxPeriodWritten_none watched]

/-- Settles O32: each bit's own work, and the bits one after the other. -/
theorem encoderCommandsAct : Obligations.EncoderCommandsAct := by
  unfold Obligations.EncoderCommandsAct
  intro s node k e bits hears u p ok target auger cleared arm release clearCounts clear acts
  have clears : u.clearPosition e = clear u := by
    refine congrArg (u.changeChannel e) (Channel.evalAuger_of ?_)
    change augerEvaluated p target (u.channel e).auger = auger (u.channel e).auger
    cases (u.channel e).auger <;> rfl
  refine ⟨?_, exec_encoderBit hears e 1 (encoderCommands_bit1 e u), exec_encoderBit hears e 2 (encoderCommands_bit2 e u),
    exec_encoderBit hears e 3 (encoderCommands_bit3 e u), ?_⟩
  · rw [← clears]
    exact exec_encoderBit hears e 0 (f := (·.clearPosition e)) (encoderCommands_bit0 e u)
  · have first : acts 0 clear u = whenBit bits 0 (fun w => w.clearPosition e) u :=
      if_congr Iff.rfl clears.symm rfl
    rw [first]
    exact command_known hears (.encoder e) bits false

/-- Settles O39: the evaluation with the thresholds as they are stored. -/
theorem thresholdWrites : Obligations.ThresholdWrites := by
  unfold Obligations.ThresholdWrites
  intro s node k e value hears setup p ch evaluated written out pOut inner pIn
  have evaluates (q : ChanParams) (mode : q.mode = p.mode) : ch.evalAuger q = evaluated q := by
    dsimp only [evaluated]
    rw [← mode]
    refine Channel.evalAuger_of ?_
    cases ch.auger <;> rfl
  have writes (q : ChanParams) (mode : q.mode = p.mode) :
      (written q).thresholdWritten e = (written q).changeChannel e (evaluated q) := by
    have own : (written q).chanParams e = q := (PerChan.get_set _ _ _ _).trans (if_pos rfl)
    rw [State.thresholdWritten, own]
    exact congrArg ((written q).changeChannel e) (evaluates q mode)
  rw [← writes pOut rfl, ← writes pIn rfl]
  refine ⟨(param_known hears (s.takes_threshold e (.inl rfl) setup) value).trans ?_,
    (param_known hears (s.takes_threshold e (.inr rfl) setup) value).trans ?_⟩
  · rw [State.storeParam_outThreshold, State.replied, if_congr (Params.clampsWrite_outThreshold _ _ _) rfl rfl]
    rfl
  · rw [State.storeParam_inThreshold, State.replied, if_congr (Params.clampsWrite_inThreshold _ _ _) rfl rfl]
    rfl

end

section
/-! Encoder channels: the writes of ENABLE, MODE and CPR, and of PHASE_SOURCE (R33, R44, R123, R124). -/

namespace Sys2Proof.Machine

variable {s : State} {e : ChanId}

/-! ### ENABLE (R33) -/

/-- A channel parameter stored with the value it holds. -/
theorem State.stored_held {q : ChanParam} {v : Int}
    (held : (s.chanParams e).write (s.params.fit (.chan e q) v) q = s.chanParams e) : s.stored (.chan e q) v = s := by
  have same : s.params.chans.set e ((s.params.chans.get e).write (s.params.fit (.chan e q) v) q) = s.params.chans :=
    (congrArg (s.params.chans.set e) held).trans (PerChan.set_get _ _)
  exact congrArg (fun chans => { s with params := { s.params with chans := chans } }) same

theorem State.takes_enable (s : State) (e : ChanId) : s.Takes (.chan e .enable) :=
  ⟨fun h => absurd (h : false = true) Bool.false_ne_true, rfl⟩

/-- A parameter of range 0–1 is stored as 1 from 1 on. -/
theorem clamp_bit (v : Int) : clamp v 0 1 = if 1 ≤ v then 1 else 0 := by
  split
  next on => exact clamp_of_hi_le on (by decide)
  next off => exact clamp_of_le_lo (by omega) (by decide)

theorem clamp_bit_eq_one (v : Int) : clamp v 0 1 = 1 ↔ 1 ≤ v := by
  rw [clamp_bit]
  split <;> simp [*]

theorem boolCode_eq_clamp_bit (on : Bool) (v : Int) : boolCode on = clamp v 0 1 ↔ on = decide (1 ≤ v) := by
  rw [clamp_bit]
  cases on <;> split <;> simp [boolCode, *]

theorem State.storeParam_enable (s : State) (e : ChanId) (v : Int) : s.storeParam (.chan e .enable) v =
    if (s.chanParams e).enable = decide (1 ≤ v) then s.stored (.chan e .enable) v
    else if 1 ≤ v then (s.stored (.chan e .enable) v).enableChannel e
    else (s.stored (.chan e .enable) v).disableChannel e :=
  if_congr (boolCode_eq_clamp_bit _ v) rfl (if_congr (clamp_bit_eq_one v) rfl rfl)

theorem State.chanParams_stored_enable (s : State) (e : ChanId) (v : Int) :
    (s.stored (.chan e .enable) v).chanParams e = { s.chanParams e with enable := decide (1 ≤ v) } := by
  rw [← decide_eq_decide.mpr (clamp_bit_eq_one v)]
  exact s.chanParams_stored e .enable v

theorem State.stored_enable_held {v : Int} (held : (s.chanParams e).enable = decide (1 ≤ v)) :
    s.stored (.chan e .enable) v = s := by
  refine State.stored_held ((s.chanParams_stored e .enable v).symm.trans ?_)
  rw [State.chanParams_stored_enable, ← held]

theorem State.enableChannel_stored (s : State) (e : ChanId) (v : Int) :
    (s.stored (.chan e .enable) v).enableChannel e =
      (s.stored (.chan e .enable) v).changeChannel e { s.channel e with
        state := .unhomed, lastIndex := none, period := none, dirChange := false
        armed := (s.channel e).armed || decide ((s.chanParams e).indexMode = .once) } := by
  rw [State.enableChannel, State.chanParams_stored_enable]
  rfl

/-! ### MODE and CPR (R44, R124) -/

theorem State.takes_setup (s : State) (setup : s.setup = true) (disabled : (s.chanParams e).enable = false)
    {q : ChanParam} (either : q = .mode ∨ q = .cpr) : s.Takes (.chan e q) :=
  ⟨fun _ => setup, by rcases either with rfl | rfl <;> exact disabled⟩

theorem State.reboundPosition_eq (s : State) (e : ChanId) : s.reboundPosition e = { s with
    channels := if (s.chanParams e).mode = .modular then
      s.channels.set e { s.channel e with position := (s.channel e).position % ((s.chanParams e).cpr : Int) }
      else s.channels } := by
  unfold State.reboundPosition
  dsimp only
  cases (s.chanParams e).mode <;> rfl

/-- The table of camera `c` after a change that clears those bound to channel `e`. -/
def State.boundTable (s : State) (e : ChanId) (changed : Bool) (c : CamId) : PhaseTable :=
  if changed = true ∧ (s.camParams c).phaseSource.chan? = some e then (s.table c).clear else s.table c

/-- Every camera's table after such a change. -/
def State.boundTables (s : State) (e : ChanId) (changed : Bool) : PerCam PhaseTable :=
  ⟨s.boundTable e changed .cam0, s.boundTable e changed .cam1, s.boundTable e changed .cam2, s.boundTable e changed .cam3⟩

theorem State.boundTables_unchanged (s : State) (e : ChanId) : s.boundTables e false = s.tables := by
  simp only [boundTables, boundTable, Bool.false_eq_true, false_and, if_false]
  rfl

theorem State.clearIfBound_eq (s : State) (e : ChanId) (c : CamId) :
    s.clearIfBound e c = { s with tables := s.tables.set c (s.boundTable e true c) } := by
  unfold State.clearIfBound State.boundTable
  by_cases bound : (s.camParams c).phaseSource.chan? = some e
  · rw [if_pos bound, if_pos ⟨rfl, bound⟩]
    rfl
  · rw [if_neg bound, if_neg (fun h => bound h.2)]
    exact congrArg (fun tables => { s with tables := tables }) (PerCam.set_get _ _).symm

theorem State.clearBound_eq (s : State) (e : ChanId) : s.clearBound e = { s with tables := s.boundTables e true } := by
  change (((s.clearIfBound e .cam0).clearIfBound e .cam1).clearIfBound e .cam2).clearIfBound e .cam3 = _
  simp only [State.clearIfBound_eq]
  rfl

/-- A change of MODE or CPR clears the tables bound to the channel. -/
theorem State.clearBound_ite (s : State) (e : ChanId) (old new : Int) :
    (if old = new then s else s.clearBound e) = { s with tables := s.boundTables e (decide (old ≠ new)) } := by
  split
  next same =>
    rw [decide_eq_false (not_not.mpr same), State.boundTables_unchanged]
  next changed =>
    rw [decide_eq_true changed]
    exact s.clearBound_eq e

theorem State.storeParam_mode (s : State) (e : ChanId) (v : Int) : s.storeParam (.chan e .mode) v =
    { (s.stored (.chan e .mode) v).reboundPosition e with
      tables := s.boundTables e (decide ((s.chanParams e).mode.code ≠ clamp v 0 1)) } := by
  refine (State.clearBound_ite ((s.stored (.chan e .mode) v).reboundPosition e) e _ _).trans ?_
  rw [State.reboundPosition_eq]
  rfl

theorem State.storeParam_cpr (s : State) (e : ChanId) (v : Int) : s.storeParam (.chan e .cpr) v =
    { (s.stored (.chan e .cpr) v).reboundPosition e with
      tables := s.boundTables e (decide (((s.chanParams e).cpr : Int) ≠ clamp v 16 4096)) } := by
  refine (State.clearBound_ite ((s.stored (.chan e .cpr) v).reboundPosition e) e _ _).trans ?_
  rw [State.reboundPosition_eq]
  rfl

theorem State.chanParams_stored_mode (s : State) (e : ChanId) (v : Int) :
    (s.stored (.chan e .mode) v).chanParams e = { s.chanParams e with mode := .ofCode (clamp v 0 1) } :=
  s.chanParams_stored e .mode v

theorem State.chanParams_stored_cpr (s : State) (e : ChanId) (v : Int) :
    (s.stored (.chan e .cpr) v).chanParams e = { s.chanParams e with cpr := (clamp v 16 4096).toNat } :=
  s.chanParams_stored e .cpr v

theorem ChanMode.code_modular (m : ChanMode) : m.code = 0 ↔ m = .modular := by cases m <;> decide
theorem ChanMode.code_linear (m : ChanMode) : m.code = 1 ↔ m = .linear := by cases m <;> decide

/-! ### PHASE_SOURCE (R124) -/

theorem State.takes_phaseSource (s : State) (c : CamId) (setup : s.setup = true) : s.Takes (.cam c .phaseSource) :=
  ⟨fun _ => setup, rfl⟩

theorem State.storeParam_phaseSource (s : State) (c : CamId) (v : Int) : s.storeParam (.cam c .phaseSource) v =
    if (s.camParams c).phaseSource.code = clamp v 0 2 then s.stored (.cam c .phaseSource) v
    else (s.stored (.cam c .phaseSource) v).clearTable c := rfl

theorem PhaseSource.ofCode_clamp (v : Int) :
    PhaseSource.ofCode (clamp v 0 2) = if v ≤ 0 then .none else if v = 1 then .ec0 else .ec1 := by
  rcases (by omega : v ≤ 0 ∨ v = 1 ∨ 2 ≤ v) with low | rfl | high
  · rw [clamp_of_le_lo low (by decide), if_pos low]
    rfl
  · rfl
  · rw [clamp_of_hi_le high (by decide), if_neg (by omega), if_neg (by omega)]
    rfl

theorem PhaseSource.code_eq_iff (source : PhaseSource) {v : Int} (low : 0 ≤ v) (high : v ≤ 2) :
    source.code = v ↔ PhaseSource.ofCode v = source := by
  rcases (by omega : v = 0 ∨ v = 1 ∨ v = 2) with rfl | rfl | rfl <;> cases source <;> decide

end Sys2Proof.Machine

open Sys2Proof Sys2Proof.Machine

/-- Settles O38, from what each parameter's write sets off. -/
theorem channelSetupWrites : Obligations.ChannelSetupWrites := by
  unfold Obligations.ChannelSetupWrites
  refine ⟨fun s node k e value hears => ?_, fun s node k e c value hears setup => ?_⟩
  · intro u p ch answered
    have written : exec (.enable node e value) s = answered ((s.heard k).storeParam (.chan e .enable) value.toInt) :=
      param_known hears (s.takes_enable e) value
    have params : u.chanParams e = { p with enable := decide (1 ≤ value.toInt) } :=
      (s.heard k).chanParams_stored_enable e value.toInt
    rw [State.storeParam_enable] at written
    refine ⟨fun held => ?_, fun off on => ⟨?_, ?_⟩, fun on off => ⟨?_, ?_⟩⟩
    · have same : p.enable = decide (1 ≤ value.toInt) := by
        rcases held with ⟨on, high⟩ | ⟨off, low⟩
        · rw [on, decide_eq_true high]
        · rw [off, decide_eq_false (by omega)]
      exact ⟨State.stored_enable_held same, written.trans (congrArg answered (if_pos same))⟩
    · rw [params]
      exact decide_eq_true on
    · have changed : p.enable ≠ decide (1 ≤ value.toInt) := by rw [off, decide_eq_true on]; decide
      exact written.trans (congrArg answered
        ((if_neg changed).trans ((if_pos on).trans ((s.heard k).enableChannel_stored e value.toInt))))
    · rw [params]
      exact decide_eq_false (by omega)
    · have changed : p.enable ≠ decide (1 ≤ value.toInt) := by rw [on, decide_eq_false (by omega)]; decide
      exact written.trans (congrArg answered ((if_neg changed).trans (if_neg (by omega))))
  · intro u p answered emptied bound boundTables rebound cpr source
    have tables (changed : Bool) : (s.heard k).boundTables e changed = boundTables changed := rfl
    have takes {q : ChanParam} (either : q = .mode ∨ q = .cpr) (disabled : p.enable = false) :=
      s.takes_setup setup disabled either
    refine ⟨fun disabled low => ?_, fun disabled high => ?_, fun disabled => ?_, ?_, ?_⟩
    · refine (param_known hears (takes (.inl rfl) disabled) value).trans (congrArg (answered · (.chan e .mode)) ?_)
      have code : clamp value.toInt 0 1 = 0 := clamp_of_le_lo low (by decide)
      rw [State.storeParam_mode, State.reboundPosition_eq, State.chanParams_stored_mode, code, tables,
        decide_eq_decide.mpr (not_congr (ChanMode.code_modular _))]
      rfl
    · refine (param_known hears (takes (.inl rfl) disabled) value).trans (congrArg (answered · (.chan e .mode)) ?_)
      have code : clamp value.toInt 0 1 = 1 := clamp_of_hi_le high (by decide)
      rw [State.storeParam_mode, State.reboundPosition_eq, State.chanParams_stored_mode, code, tables,
        decide_eq_decide.mpr (not_congr (ChanMode.code_linear _))]
      rfl
    · refine (param_known hears (takes (.inr rfl) disabled) value).trans (congrArg (answered · (.chan e .cpr)) ?_)
      have stored : ((clamp value.toInt 16 4096).toNat : Int) = clamp value.toInt 16 4096 :=
        Int.toNat_of_nonneg (le_trans (by decide) (clamp_bounds value.toInt 16 4096 (by decide)).1)
      have changes : decide ((((s.heard k).chanParams e).cpr : Int) ≠ clamp value.toInt 16 4096) =
          decide (p.cpr ≠ cpr) := by
        rw [← stored]
        exact decide_eq_decide.mpr (not_congr Int.ofNat_inj)
      rw [State.storeParam_cpr, State.reboundPosition_eq, State.chanParams_stored_cpr, tables, changes]
      rfl
    · have params : (u (.cam c .phaseSource)).camParams c =
          { (s.camParams c) with phaseSource := .ofCode (clamp value.toInt 0 2) } :=
        (PerCam.get_set _ _ _ _).trans (if_pos rfl)
      rw [params]
      exact PhaseSource.ofCode_clamp value.toInt
    · refine (param_known hears (s.takes_phaseSource c setup) value).trans
        (congrArg (answered · (.cam c .phaseSource)) ?_)
      have same : (s.camParams c).phaseSource.code = clamp value.toInt 0 2 ↔ source = (s.camParams c).phaseSource := by
        obtain ⟨low, high⟩ := clamp_bounds value.toInt 0 2 (by decide)
        rw [PhaseSource.code_eq_iff _ low high, PhaseSource.ofCode_clamp]
      refine (State.storeParam_phaseSource _ c _).trans ((if_congr same rfl rfl).trans ?_)
      by_cases held : source = (s.camParams c).phaseSource
      · rw [if_pos held, if_pos held]
        rfl
      · rw [if_neg held, if_neg held]
        rfl

end

section
/-! Encoder channels stay legal: the position within its mode's range and the states as ENABLE and MODE have them (R27, R28,
R33–R35, R39), for every operation on one channel. -/

namespace Sys2Proof.Machine

variable {ch : Channel} {p q : ChanParams}

theorem Channel.PositionOk.of_eq {c : Channel} (h : ch.PositionOk p) (same : c.position = ch.position) :
    c.PositionOk p := by
  unfold Channel.PositionOk at h ⊢
  rw [same]
  exact h

namespace Channel.Ok

/-- A channel's legality depends on its ENABLE, MODE and CPR alone. -/
theorem of_params (h : ch.Ok p) (enable : q.enable = p.enable) (mode : q.mode = p.mode) (cpr : q.cpr = p.cpr) :
    ch.Ok q := by
  unfold Channel.Ok Channel.PositionOk at h ⊢
  rw [enable, mode, cpr]
  exact h

/-- Another position within the range. -/
theorem withPosition (h : ch.Ok p) {x : Int} (inside : Channel.PositionOk { ch with position := x } p) :
    Channel.Ok { ch with position := x } p :=
  ⟨inside, h.2⟩

theorem evalAuger (h : ch.Ok p) : (ch.evalAuger p).Ok p := by
  obtain ⟨position, enabled, timed, modular, known, last⟩ := h
  rw [Channel.evalAuger_eq]
  refine ⟨position, enabled, timed, modular, fun evaluated => ?_, last⟩
  by_cases homed : p.mode = .linear ∧ ch.state = .homed
  · exact homed
  · exact known (by simpa only [if_neg homed] using evaluated)

theorem enabled_of_running (h : ch.Ok p) (running : ch.state = .running) : p.enable = true := by
  obtain ⟨-, enabled, -⟩ := h
  rw [running] at enabled
  simpa using enabled

theorem unknown_of_modular (h : ch.Ok p) (modular : p.mode = .modular) : ch.auger = .unknown := by
  obtain ⟨-, -, -, -, known, -⟩ := h
  by_contra other
  exact absurd (modular.symm.trans (known other).1) (by decide)

theorem unknown_of_disabled (h : ch.Ok p) (disabled : ch.state = .disabled) : ch.auger = .unknown := by
  obtain ⟨-, -, -, -, known, -⟩ := h
  by_contra other
  exact absurd (disabled.symm.trans (known other).2) (by decide)

/-- A RUNNING channel that drops to HOMED. -/
theorem dropped (h : ch.Ok p) (running : ch.state = .running) : Channel.Ok { ch with state := .homed, period := none } p := by
  have on := h.enabled_of_running running
  obtain ⟨position, -, -, modular, known, last⟩ := h
  refine ⟨position, by simp [on], by simp, by simp, fun other => ?_, fun _ => last (.inr running)⟩
  exact absurd (running.symm.trans (known other).2) (by decide)

theorem count (h : ch.Ok p) (d : Dir) : (ch.count p d).Ok p := by
  obtain ⟨position, -⟩ := id h
  have moved := Channel.applyCount_positionOk position d
  have placed : Channel.PositionOk { ch with
      position := if decide (d ≠ ch.lastDir) && p.hysteresis then ch.position else (ch.applyCount p d).position } p := by
    split
    · exact position
    · exact moved.of_eq rfl
  rw [Channel.count_eq]
  cases drops : decide (d ≠ ch.lastDir) && decide (ch.state = .running)
  · exact h.withPosition placed
  · have running : ch.state = .running := of_decide_eq_true (Bool.and_eq_true_iff.mp drops).2
    exact (h.dropped running).withPosition placed

theorem quadrature (h : ch.Ok p) (a b : Bool) : (ch.quadrature p a b).Ok p := by
  have tracked : (ch.tracked a b).Ok p := h
  by_cases both : a ≠ ch.levels.a ∧ b ≠ ch.levels.b
  · rw [Channel.quadrature_both both.1 both.2]
    exact tracked
  · by_cases some : a ≠ ch.levels.a ∨ b ≠ ch.levels.b
    · rw [Channel.quadrature_single ⟨some, both⟩]
      split
      · exact (tracked.count _).evalAuger
      · exact tracked
    · obtain ⟨sameA, sameB⟩ := not_or.mp some
      rw [Channel.quadrature_still (not_not.mp sameA) (not_not.mp sameB)]
      exact tracked

/-- The state step of an accepted index leaves a channel enabled or not, its period valid exactly in RUNNING, MODULAR
channels alone RUNNING, STOPPED or SLIPPED, and a HOMED LINEAR channel HOMED. -/
theorem indexStep (h : ch.Ok p) (now : Time) (uncorrected zeroed : Bool) :
    ((ch.indexStep p now uncorrected zeroed).1 = .disabled ↔ p.enable = false) ∧
    ((ch.indexStep p now uncorrected zeroed).2.isSome = true ↔ (ch.indexStep p now uncorrected zeroed).1 = .running) ∧
    ((ch.indexStep p now uncorrected zeroed).1 = .running ∨ (ch.indexStep p now uncorrected zeroed).1 = .stopped ∨
      (ch.indexStep p now uncorrected zeroed).1 = .slipped → p.mode = .modular) ∧
    (p.mode = .linear ∧ ch.state = .homed → (ch.indexStep p now uncorrected zeroed).1 = .homed) := by
  obtain ⟨-, enabled, timed, modular, -, -⟩ := h
  rw [← enabled]
  unfold Channel.indexStep
  cases mode : p.mode with
  | linear => cases state : ch.state <;> simp_all
  | modular =>
    cases state : ch.state with
    | disabled => simp_all
    | unhomed => simp
    | stopped => cases uncorrected <;> simp
    | slipped => cases zeroed <;> simp
    | homed => cases uncorrected <;> cases ch.periodTest p now <;> simp
    | running => cases uncorrected <;> cases ch.periodTest p now <;> simp

theorem acceptIndex (h : ch.Ok p) (zeroed : Channel.PositionOk { ch with position := p.indexPosition } p) (now : Time) :
    (ch.acceptIndex p now).Ok p := by
  obtain ⟨enabled, timed, modular, homed⟩ := h.indexStep now (ch.slips p && !ch.rezeros p) (ch.rezeros p)
  obtain ⟨position, -, -, -, known, -⟩ := h
  rw [Channel.acceptIndex_eq]
  refine evalAuger ⟨?_, enabled, timed, modular, fun other => ⟨(known other).1, homed (known other)⟩, fun _ => rfl⟩
  have placed : Channel.PositionOk { ch with position := if ch.rezeros p then p.indexPosition else ch.position } p := by
    split
    · exact zeroed
    · exact position
  exact placed.of_eq rfl

theorem risingIndex (h : ch.Ok p) (zeroed : Channel.PositionOk { ch with position := p.indexPosition } p) (now : Time) :
    (ch.risingIndex p now).Ok p := by
  unfold Channel.risingIndex
  split
  · exact h
  · split
    · exact h
    · exact h.acceptIndex zeroed now

/-- The stop watch of a HOMED or RUNNING MODULAR channel runs out (R37). -/
theorem stopped (h : ch.Ok p) (watches : p.mode = .modular ∧ (ch.state = .homed ∨ ch.state = .running)) (n : Nat) :
    Channel.Ok { ch with state := .stopped, period := none, stopCount := n } p := by
  obtain ⟨modular, state⟩ := watches
  have unknown := h.unknown_of_modular modular
  obtain ⟨position, enabled, -⟩ := h
  have on : p.enable ≠ false := fun off => by
    rw [enabled.mpr off] at state
    exact state.elim (by decide) (by decide)
  exact ⟨position, by simp [on], by simp, fun _ => modular, fun other => absurd unknown other, by simp⟩

/-- ENABLE goes from 0 to 1 (R33). -/
theorem enabled (h : ch.Ok p) (off : p.enable = false) (armed : Bool) :
    Channel.Ok { ch with state := .unhomed, lastIndex := none, period := none, dirChange := false, armed := armed }
      { p with enable := true } := by
  obtain ⟨-, enabled, -⟩ := id h
  have unknown := h.unknown_of_disabled (enabled.mpr off)
  obtain ⟨position, -⟩ := h
  exact ⟨position, by simp, by simp, by simp, fun other => absurd unknown other, by simp⟩

/-- ENABLE goes from 1 to 0 (R33). -/
theorem disabled (h : ch.Ok p) :
    Channel.Ok { ch with state := .disabled, period := none, auger := .unknown } { p with enable := false } := by
  obtain ⟨position, -⟩ := h
  exact ⟨position, by simp, by simp, by simp, by simp, by simp⟩

/-- A disabled channel is legal in any mode that its position fits. -/
theorem rebound (h : ch.Ok p) (off : p.enable = false) (enable : q.enable = false) {x : Int}
    (inside : Channel.PositionOk { ch with position := x } q) : Channel.Ok { ch with position := x } q := by
  obtain ⟨-, enabled, -⟩ := id h
  have state : ch.state = .disabled := enabled.mpr off
  have unknown := h.unknown_of_disabled state
  obtain ⟨-, -, timed, -⟩ := h
  exact ⟨inside, by simp [state, enable], timed, by simp [state], fun other => absurd unknown other, by simp [state]⟩

end Channel.Ok

/-! ### Parameters in range -/

namespace Params.InRange

variable {p : Params}

theorem cpr (h : p.InRange) (e : ChanId) : 16 ≤ (p.chans.get e).cpr ∧ (p.chans.get e).cpr ≤ 4096 := by
  obtain ⟨low, high⟩ := h.1 (.chan e .cpr)
  change (16 : Int) ≤ ((p.chans.get e).cpr : Int) at low
  change ((p.chans.get e).cpr : Int) ≤ 4096 at high
  omega

theorem indexValue (h : p.InRange) (e : ChanId) :
    linearMin ≤ (p.chans.get e).indexValue ∧ (p.chans.get e).indexValue ≤ linearMax := h.1 (.chan e .indexValue)

/-- The index value, taken as a position, fits the channel. -/
theorem indexPosition (h : p.InRange) (e : ChanId) (ch : Channel) :
    Channel.PositionOk { ch with position := (p.chans.get e).indexPosition } (p.chans.get e) := by
  have cpr := h.cpr e
  unfold Channel.PositionOk ChanParams.indexPosition
  cases (p.chans.get e).mode with
  | modular => exact ⟨Int.emod_nonneg _ (by omega), Int.emod_lt_of_pos _ (by omega)⟩
  | linear => exact h.indexValue e

/-- So does 0. -/
theorem positionZero (h : p.InRange) (e : ChanId) (ch : Channel) :
    Channel.PositionOk { ch with position := 0 } (p.chans.get e) := by
  have cpr := h.cpr e
  unfold Channel.PositionOk
  dsimp only
  cases (p.chans.get e).mode with
  | modular => exact ⟨le_refl 0, by omega⟩
  | linear => exact ⟨by decide, by decide⟩

end Params.InRange

end Sys2Proof.Machine

end

section
/-! What keeps the bounded values within their bounds and the channels legal: updates of the state, and the operations of the
blocks made of them. Parameters change at writes alone, rejected-run at frame ends and link-down (R76, R77), tables at
learning and clearing (R120, R124), channels at their own events, commands and writes. -/

namespace Sys2Proof.Machine

/-- From `s` to `t` every bounded value stays within its bounds, and the channels legal. -/
structure State.KeepsValues (s t : State) : Prop where
  params : s.params.InRange → t.params.InRange
  screens : s.ScreensOk → t.ScreensOk
  tables : s.TablesOk → t.TablesOk
  channels : s.params.InRange → s.ChannelsOk → t.ChannelsOk

namespace State.KeepsValues

variable {s t : State}

theorem refl (s : State) : s.KeepsValues s := ⟨id, id, id, fun _ => id⟩

theorem trans {u : State} (h : s.KeepsValues t) (g : t.KeepsValues u) : s.KeepsValues u :=
  ⟨fun x => g.params (h.params x), fun x => g.screens (h.screens x), fun x => g.tables (h.tables x),
    fun x y => g.channels (h.params x) (h.channels x y)⟩

/-! ### Updates -/

/-- Nothing but parameters, screens, tables and channels matters. -/
theorem of_same {u : State} (h : s.KeepsValues t) (params : u.params = t.params) (screens : u.screens = t.screens)
    (tables : u.tables = t.tables) (channels : u.channels = t.channels) : s.KeepsValues u := by
  refine h.trans ⟨?_, ?_, ?_, ?_⟩
  · rw [params]
    exact id
  · unfold State.ScreensOk State.screen State.camParams
    rw [params, screens]
    exact id
  · unfold State.TablesOk State.table
    rw [tables]
    exact id
  · unfold State.ChannelsOk State.channel State.chanParams
    rw [params, channels]
    exact fun _ => id

theorem setLink (h : s.KeepsValues t) (c : CamId) (v : Link) : s.KeepsValues (t.setLink c v) := h.of_same rfl rfl rfl rfl
theorem setRing (h : s.KeepsValues t) (c : CamId) (v : Ring) : s.KeepsValues (t.setRing c v) := h.of_same rfl rfl rfl rfl
theorem setSlot (h : s.KeepsValues t) (c : CamId) (k : SlotId) (v : Slot) : s.KeepsValues (t.setSlot c k v) :=
  h.setRing c _
theorem setContext (h : s.KeepsValues t) (c : CamId) (v : Context) : s.KeepsValues (t.setContext c v) :=
  h.of_same rfl rfl rfl rfl
theorem setEngine (h : s.KeepsValues t) (v : Engine) : s.KeepsValues (t.setEngine v) := h.of_same rfl rfl rfl rfl
theorem setOutput (h : s.KeepsValues t) (o : OutId) (v : Compositor) : s.KeepsValues (t.setOutput o v) :=
  h.of_same rfl rfl rfl rfl
theorem setArbiter (h : s.KeepsValues t) (v : Arbiter) : s.KeepsValues (t.setArbiter v) := h.of_same rfl rfl rfl rfl
theorem setMi (h : s.KeepsValues t) (v : Interface) : s.KeepsValues (t.setMi v) := h.of_same rfl rfl rfl rfl
theorem ask (h : s.KeepsValues t) (m : Message) : s.KeepsValues (t.ask m) := h.setMi _

theorem setScreen (h : s.KeepsValues t) (c : CamId) {v : Screen}
    (run : t.ScreensOk → v.rejectedRun ≤ (t.camParams c).holdLimit) : s.KeepsValues (t.setScreen c v) := by
  refine h.trans ⟨id, fun ok d => ?_, id, fun _ => id⟩
  rw [State.setScreen_screen]
  split
  next same =>
    subst same
    exact run ok
  next => exact ok d

theorem setTable (h : s.KeepsValues t) (c : CamId) {v : PhaseTable} (inside : t.TablesOk → v.InRange) :
    s.KeepsValues (t.setTable c v) := by
  refine h.trans ⟨id, id, fun ok d => ?_, fun _ => id⟩
  rw [State.setTable_table]
  split
  · exact inside ok
  · exact ok d

theorem setChannel (h : s.KeepsValues t) (e : ChanId) {v : Channel}
    (legal : t.params.InRange → t.ChannelsOk → v.Ok (t.chanParams e)) : s.KeepsValues (t.setChannel e v) := by
  refine h.trans ⟨id, id, id, fun inside ok d => ?_⟩
  rw [State.setChannel_channel]
  split
  next same =>
    subst same
    exact legal inside ok
  next => exact ok d

theorem ite {u : State} (yes : s.KeepsValues t) (no : s.KeepsValues u) (p : Prop) [Decidable p] :
    s.KeepsValues (if p then t else u) := by
  split
  · exact yes
  · exact no

/-- An operation that keeps the values keeps them when it is repeated over a list. -/
theorem foldl {α : Type} {f : State → α → State} (each : ∀ (u : State) (a : α), s.KeepsValues u → s.KeepsValues (f u a))
    (l : List α) (h : s.KeepsValues t) : s.KeepsValues (l.foldl f t) := by
  induction l generalizing t with
  | nil => exact h
  | cons a l ih => exact ih (each t a h)

/-- Output, still and arbiter operations reach none of the values. -/
theorem viewFrame {u : State} (h : s.KeepsValues t) (f : t.ViewFrame u) : s.KeepsValues u :=
  h.of_same f.params f.screens f.tables f.channels

/-! ### Tables and engine -/

theorem clearTable (h : s.KeepsValues t) (c : CamId) : s.KeepsValues (t.clearTable c) :=
  h.setTable c (fun _ => PhaseTable.clear_inRange _)
theorem clearIfBound (h : s.KeepsValues t) (e : ChanId) (c : CamId) : s.KeepsValues (t.clearIfBound e c) :=
  (h.clearTable c).ite h _
theorem clearBound (h : s.KeepsValues t) (e : ChanId) : s.KeepsValues (t.clearBound e) :=
  (((h.clearIfBound e .cam0).clearIfBound e .cam1).clearIfBound e .cam2).clearIfBound e .cam3
theorem phaseWrites (h : s.KeepsValues t) (j : Job) (i : Option PhaseInfo) (p : XY (Option Int)) :
    s.KeepsValues (t.phaseWrites j i p) :=
  (h.setSlot _ _ _).setTable j.cam (fun ok => ok j.cam)
theorem startJob (h : s.KeepsValues t) (j : Job) : s.KeepsValues (t.startJob j) :=
  ((h.phaseWrites _ _ _).setContext _ _).setEngine _
theorem startNext (h : s.KeepsValues t) : s.KeepsValues t.startNext := by
  unfold State.startNext
  split
  · exact (h.setEngine _).startJob _
  · exact h
theorem supersede (h : s.KeepsValues t) (j : Job) : s.KeepsValues (t.supersede j) :=
  ((h.phaseWrites j _ _).setSlot _ _ _).setRing _ _
theorem withdraw (h : s.KeepsValues t) (c : CamId) : s.KeepsValues (t.withdraw c) := by
  unfold State.withdraw
  split
  · exact h
  · exact (h.setEngine _).supersede _
theorem handOff (h : s.KeepsValues t) (j : Job) : s.KeepsValues (t.handOff j) := ((h.withdraw _).setEngine _).startNext

/-- A completed job teaches the table within its bounds (R94, R120). -/
theorem completeWith (h : s.KeepsValues t) (j : RunningJob) (k : Slot) (r : Record) :
    s.KeepsValues (t.completeWith j k r) := by
  have learned (x : PhaseTable) (l sf ds : Nat) (inside : x.InRange) :
      (x.learn j.phase l sf (j.measurement k r) (j.shifts ds (j.measurement k r))).InRange := by
    refine PhaseTable.learn_inRange inside _ _ _ _ _ (fun ax valid => ?_)
    rw [RunningJob.shifts, XY.get_ofAxis]
    exact RunningJob.shift_bounds _ _ _ valid
  exact ((((h.setContext _ _).setTable _ (fun ok => learned _ _ _ _ (ok _))).setSlot _ _ _).setEngine _).startNext
theorem completeJob (h : s.KeepsValues t) : s.KeepsValues t.completeJob := by
  unfold State.completeJob
  split
  · exact h
  · split
    · exact (h.setEngine _).startNext
    · exact h.completeWith _ _ _

/-! ### Frame store and screen -/

theorem scoredEnd (h : s.KeepsValues t) (c : CamId) (k : SlotId) (n : Nat) (v : Verdict) :
    s.KeepsValues (t.scoredEnd c k n v) := ((h.setSlot _ _ _).setRing _ _).handOff _
theorem wellFormedEnd (h : s.KeepsValues t) (c : CamId) (k : SlotId) (n : Nat) : s.KeepsValues (t.wellFormedEnd c k n) := by
  have judged := h.setScreen c (fun ok => Screen.judge_run (ok c) (t.camParams c).acceptRatio (t.slot c k).q)
  unfold State.wellFormedEnd
  dsimp only
  split
  · exact judged.setRing _ _
  · exact judged.scoredEnd _ _ _ _
theorem storeFrameEnd (h : s.KeepsValues t) (c : CamId) (w : Bool) (n : Nat) : s.KeepsValues (t.storeFrameEnd c w n) := by
  unfold State.storeFrameEnd
  split
  · exact h
  · exact (h.wellFormedEnd _ _ _).ite (h.setRing _ _) _
theorem storeLinkDown (h : s.KeepsValues t) (c : CamId) : s.KeepsValues (t.storeLinkDown c) := by
  unfold State.storeLinkDown
  split
  · exact h
  · exact h.setRing _ _

/-! ### Links -/

theorem failAttempt (h : s.KeepsValues t) (c : CamId) : s.KeepsValues (t.failAttempt c) :=
  (h.setLink _ _).ite ((h.setLink _ _).ask _) _

/-- Link-down clears rejected-run (R77). -/
theorem linkDown (h : s.KeepsValues t) (c : CamId) : s.KeepsValues (t.linkDown c) :=
  ((h.storeLinkDown c).setContext _ _).setScreen _ (fun _ => Nat.zero_le _)
theorem leaveLocked (h : s.KeepsValues t) (c : CamId) : s.KeepsValues (t.leaveLocked c) :=
  (((h.setLink _ _).ask _).linkDown c).setLink _ _
theorem setOffered (h : s.KeepsValues t) (c : CamId) (o : Tap) : s.KeepsValues (t.setOffered c o) := h.setLink _ _
theorem forceTapUpdate (h : s.KeepsValues t) (c : CamId) : s.KeepsValues (t.forceTapUpdate c) := (h.setLink _ _).ite h _
theorem linkReset (h : s.KeepsValues t) (c : CamId) : s.KeepsValues (t.linkReset c) := by
  unfold State.linkReset
  split
  · exact h.leaveLocked c
  · exact h.setLink _ _
  · exact h.setLink _ _
  · exact h.setLink _ _
  · exact h
theorem marker (h : s.KeepsValues t) (c : CamId) (n : Nat) {f : State → State}
    (hf : ∀ u : State, s.KeepsValues u → s.KeepsValues (f u)) : s.KeepsValues (t.marker c n f) := by
  unfold State.marker
  split
  · exact hf _ (h.setLink _ _)
  · exact h.setLink _ _
  all_goals exact h
theorem conceal (h : s.KeepsValues t) (c : CamId) (k : SlotId) : s.KeepsValues (t.conceal c k) :=
  (h.setSlot _ _ _).setLink _ _
theorem concealMany (h : s.KeepsValues t) (c : CamId) (k : SlotId) (n : Nat) : s.KeepsValues (t.concealMany c k n) := by
  induction n generalizing t with
  | zero => exact h
  | succ n ih => exact ih (h.conceal c k)
theorem settleOpenBad (h : s.KeepsValues t) (c : CamId) (k : SlotId) : s.KeepsValues (t.settleOpenBad c k) := by
  unfold State.settleOpenBad
  split
  · exact h
  · exact (h.conceal c k).setLink _ _
theorem countMalformed (h : s.KeepsValues t) (c : CamId) (m : Bool) : s.KeepsValues (t.countMalformed c m) :=
  ((h.setLink _ _).ite (((h.setLink _ _).ask _).leaveLocked c) _).ite (h.setLink _ _) _
theorem endFrame (h : s.KeepsValues t) (c : CamId) (k : SlotId) (b : Bool) : s.KeepsValues (t.endFrame c k b) :=
  have stored (l : Link) (w : Bool) (n : Nat) := ((h.settleOpenBad c k).setLink c l).storeFrameEnd c w n
  ((stored _ _ _).ite ((stored _ _ _).setLink _ _) _).countMalformed _ _
theorem beginFrame (h : s.KeepsValues t) (c : CamId) (n : Byte) : s.KeepsValues (t.beginFrame c n) := by
  have counted := (h.setLink c { t.link c with lastFrameCounter := n }).setRing c (t.ring c).counted
  unfold State.beginFrame
  dsimp only
  refine setLink ?_ _ _
  split
  · exact (counted.setRing _ _).setLink _ _
  · exact ((counted.setLink _ _).setRing _ _).ask _
theorem takeFrameStart (h : s.KeepsValues t) (c : CamId) (n : Byte) : s.KeepsValues (t.takeFrameStart c n) := by
  unfold State.takeFrameStart
  split
  · exact h.beginFrame _ _
  · exact h.beginFrame _ _
  · exact ((h.endFrame _ _ _).beginFrame _ _).ite (h.endFrame _ _ _) _
theorem takeFrameEnd (h : s.KeepsValues t) (c : CamId) : s.KeepsValues (t.takeFrameEnd c) := by
  unfold State.takeFrameEnd
  split
  · exact h.setLink _ _
  · exact (h.setLink _ _).setLink _ _
  · exact h.endFrame _ _ _
theorem takeLineStart (h : s.KeepsValues t) (c : CamId) (k : SlotId) (n : Nat) : s.KeepsValues (t.takeLineStart c k n) :=
  have closed := h.settleOpenBad c k
  closed.ite ((closed.setLink _ _).ite (((closed.concealMany _ _ _).setLink _ _).ite (closed.setLink _ _) _) _) _
theorem whileReceiving (h : s.KeepsValues t) (c : CamId) {f : SlotId → State → State}
    (hf : ∀ (k : SlotId) (u : State), s.KeepsValues u → s.KeepsValues (f k u)) : s.KeepsValues (t.whileReceiving c f) := by
  unfold State.whileReceiving
  split
  · exact hf _ _ h
  all_goals exact h
theorem takeLineEnd (h : s.KeepsValues t) (c : CamId) (k : SlotId) (w : Word) : s.KeepsValues (t.takeLineEnd c k w) := by
  unfold State.takeLineEnd
  split
  · exact h
  · exact (((h.setSlot _ _ _).setLink _ _).setLink _ _).ite ((h.conceal _ _).setLink _ _) _

/-! ### Encoder channels -/

theorem changeChannel (h : s.KeepsValues t) (e : ChanId) {ch : Channel}
    (legal : t.params.InRange → t.ChannelsOk → ch.Ok (t.chanParams e)) : s.KeepsValues (t.changeChannel e ch) :=
  have reported := ((h.setChannel e legal).ask (.encoderReport e)).ite (h.setChannel e legal) _
  (reported.viewFrame ((State.ViewFrame.refl _).augerChanged _ _)).ite reported _
theorem noticedChange (h : s.KeepsValues t) (e : ChanId) (code : FaultCode) (rose : Bool) (n : Nat) {ch : Channel}
    (legal : t.params.InRange → t.ChannelsOk → ch.Ok (t.chanParams e)) :
    s.KeepsValues ((t.noticeRise e code rose n).changeChannel e ch) := by
  cases rose
  · exact h.changeChannel e legal
  · exact (h.ask _).changeChannel e legal
theorem stopChannel (h : s.KeepsValues t) (e : ChanId) {n : Nat}
    (watched : (t.channel e).watched? (t.chanParams e) t.timebase = some n) : s.KeepsValues (t.stopChannel e) := by
  have watches : (t.chanParams e).mode = .modular ∧ ((t.channel e).state = .homed ∨ (t.channel e).state = .running) := by
    by_contra idle
    exact absurd (watched.symm.trans (Channel.watched?_of_idle _ (.inl idle))) (by simp)
  exact (h.ask _).changeChannel e (fun _ ok => (ok e).stopped watches _)
theorem maxPeriodWritten (h : s.KeepsValues t) (e : ChanId) : s.KeepsValues (t.maxPeriodWritten e) := by
  cases watched : (t.channel e).watched? (t.chanParams e) t.timebase with
  | none =>
    rw [State.maxPeriodWritten_none watched]
    exact h
  | some n =>
    rw [State.maxPeriodWritten_some watched]
    exact (h.stopChannel e watched).ite h _
theorem thresholdWritten (h : s.KeepsValues t) (e : ChanId) : s.KeepsValues (t.thresholdWritten e) :=
  h.changeChannel e (fun _ ok => (ok e).evalAuger)
theorem clearPosition (h : s.KeepsValues t) (e : ChanId) : s.KeepsValues (t.clearPosition e) := by
  refine h.changeChannel e (fun inside ok => Channel.Ok.evalAuger ((ok e).withPosition ?_))
  split
  · exact inside.indexPosition e _
  · exact inside.positionZero e _

end State.KeepsValues

end Sys2Proof.Machine

end

section
/-! What keeps the bounded values and the channels: stored writes, commands, the soft reset and the start, and every command
of the part. -/

namespace Sys2Proof.Machine

variable {s t : State}

/-! ### The start (R68, R107, R128, R204) -/

theorem Params.default_inRange : Params.default.InRange := by
  refine ⟨fun id => ?_, fun c => ?_, fun o => ?_, fun e => ?_⟩
  · cases id with
    | cam c q => cases c <;> cases q <;> decide
    | chan e q => cases e <;> cases q <;> decide
    | out o q => cases o <;> cases q <;> decide
    | nodeCode k => cases k <;> decide
    | maxPriority k => cases k <;> decide
    | dwell => decide
    | keepalive => decide
    | augerOutput => decide
    | augerCamera => decide
    | augerPriority => decide
  · cases c <;> rfl
  · cases o <;> exact .inr rfl
  · cases e <;> decide

/-- A channel after power-on is legal wherever ENABLE is 0. -/
theorem Channel.initial_ok {p : Params} (inside : p.InRange) (e : ChanId) (off : (p.chans.get e).enable = false)
    (levels : EncLevels) : (Channel.initial levels).Ok (p.chans.get e) := by
  refine ⟨inside.positionZero e (Channel.initial levels), ?_, ?_, ?_, ?_, ?_⟩ <;> simp [Channel.initial, off]

theorem State.KeepsValues.start (s : State) (l : BootLevels) : s.KeepsValues (State.start l) := by
  refine ⟨fun _ => Params.default_inRange, fun _ c => ?_, fun _ c => ?_, fun _ _ e => ?_⟩
  · cases c <;> exact Nat.zero_le _
  · have empty : PhaseTable.initial.InRange :=
      ⟨List.length_replicate, fun b member => List.eq_of_mem_replicate member ▸ Bin.empty_inRange⟩
    cases c <;> exact empty
  · have legal := Channel.initial_ok Params.default_inRange e (by cases e <;> rfl) (l.encoders.get e)
    unfold State.channel State.start
    rw [PerChan.get_map]
    exact legal

/-! ### Stored writes -/

/-- A write leaves HOLD_LIMIT to its own parameter. -/
theorem Params.holdLimit_write {p : Params} {id : ParamId} {v : Int} (c : CamId) (other : id ≠ .cam c .holdLimit) :
    ((p.write id v).cams.get c).holdLimit = (p.cams.get c).holdLimit :=
  Int.ofNat_inj.mp (p.read_write_other (j := .cam c .holdLimit) (Ne.symm other) (fun _ _ => by simp))

/-- A write leaves ENABLE, MODE and CPR to their own parameters. -/
theorem Params.channel_write {p : Params} {id : ParamId} {v : Int} (e : ChanId)
    (other : id ≠ .chan e .enable ∧ id ≠ .chan e .mode ∧ id ≠ .chan e .cpr) :
    ((p.write id v).chans.get e).enable = (p.chans.get e).enable ∧
    ((p.write id v).chans.get e).mode = (p.chans.get e).mode ∧ ((p.write id v).chans.get e).cpr = (p.chans.get e).cpr := by
  obtain ⟨notEnable, notMode, notCpr⟩ := other
  have enable := p.read_write_other (v := v) (j := .chan e .enable) (Ne.symm notEnable) (fun _ _ => by simp)
  have mode := p.read_write_other (v := v) (j := .chan e .mode) (Ne.symm notMode) (fun _ _ => by simp)
  have cpr := p.read_write_other (v := v) (j := .chan e .cpr) (Ne.symm notCpr) (fun _ _ => by simp)
  have boolCode_inj (a b : Bool) (h : boolCode a = boolCode b) : a = b := by cases a <;> cases b <;> simp_all [boolCode]
  have code_inj (a b : ChanMode) (h : a.code = b.code) : a = b := by cases a <;> cases b <;> simp_all [ChanMode.code]
  exact ⟨boolCode_inj _ _ enable, code_inj _ _ mode, Int.ofNat_inj.mp cpr⟩

/-- A position within either mode's range is within the LINEAR range. -/
theorem Channel.PositionOk.linear {ch : Channel} {p : ChanParams} (h : ch.PositionOk p) (cpr : p.cpr ≤ 4096) :
    linearMin ≤ ch.position ∧ ch.position ≤ linearMax := by
  unfold Channel.PositionOk at h
  cases mode : p.mode with
  | linear =>
    simp only [mode] at h
    exact h
  | modular =>
    simp only [mode] at h
    unfold linearMin linearMax
    omega

/-- A position brought within the range that the stored MODE and CPR give (R44). -/
theorem Channel.PositionOk.rebound {ch : Channel} {p q : ChanParams} (h : ch.PositionOk p) (high : p.cpr ≤ 4096)
    (low : 16 ≤ q.cpr) : Channel.PositionOk { ch with
      position := if q.mode = .modular then ch.position % (q.cpr : Int) else ch.position } q := by
  have inLinear := h.linear high
  unfold Channel.PositionOk
  dsimp only
  cases q.mode with
  | modular => exact ⟨Int.emod_nonneg _ (by omega), Int.emod_lt_of_pos _ (by omega)⟩
  | linear => exact inLinear

theorem State.reboundPosition_channels (s : State) (e : ChanId) : (s.reboundPosition e).channels =
    s.channels.set e { s.channel e with position := if (s.chanParams e).mode = .modular then
      (s.channel e).position % ((s.chanParams e).cpr : Int) else (s.channel e).position } := by
  rw [State.reboundPosition_eq]
  split
  · rfl
  · exact (PerChan.set_get _ _).symm

namespace State.KeepsValues

/-- A stored value that no screen and no channel's legality depends on. -/
theorem stored (h : s.KeepsValues t) {id : ParamId} (notLimit : ∀ c, id ≠ .cam c .holdLimit)
    (notSetup : ∀ e, id ≠ .chan e .enable ∧ id ≠ .chan e .mode ∧ id ≠ .chan e .cpr) (v : Int) :
    s.KeepsValues (t.stored id v) := by
  refine h.trans ⟨fun inside => Params.write_inRange inside id v, fun ok c => ?_, fun ok => ok, fun _ ok e => ?_⟩
  · exact (ok c).trans_eq (Params.holdLimit_write c (notLimit c)).symm
  · obtain ⟨enable, mode, cpr⟩ := Params.channel_write (p := t.params) (v := t.params.fit id v) e (notSetup e)
    exact (ok e).of_params enable mode cpr

/-- HOLD_LIMIT lowers a rejected-run above it (R78). -/
theorem storeParam_holdLimit (h : s.KeepsValues t) (c : CamId) (v : Int) :
    s.KeepsValues (t.storeParam (.cam c .holdLimit) v) := by
  rw [State.storeParam_holdLimit, ← t.stored_holdLimit c v]
  refine h.trans ⟨fun inside => Params.write_inRange inside _ v, fun ok d => ?_, id, fun _ ok => ok⟩
  rw [State.setScreen_screen]
  split
  next same =>
    subst same
    exact min_le_right _ _
  next other =>
    exact (ok d).trans_eq (Params.holdLimit_write d (by simpa using Ne.symm other)).symm

/-- A stored value of a channel, with what the write makes of the channel itself. -/
theorem channelStored {u : State} (h : s.KeepsValues t) {e : ChanId} {q : ChanParam} {v : Int} {ch : Channel}
    (frame : (t.stored (.chan e q) v).MachineFrame u) (channels : u.channels = t.channels.set e ch)
    (legal : t.params.InRange → t.ChannelsOk → ch.Ok ((t.stored (.chan e q) v).chanParams e)) : s.KeepsValues u := by
  refine h.trans ⟨fun inside => ?_, fun ok => ?_, fun ok => ?_, fun inside ok d => ?_⟩
  · rw [frame.params]
    exact Params.write_inRange inside _ v
  · unfold State.ScreensOk State.screen State.camParams
    rw [frame.screens, frame.params]
    exact ok
  · unfold State.TablesOk State.table
    rw [frame.tables]
    exact ok
  · unfold State.channel State.chanParams
    rw [channels, frame.params, PerChan.get_set]
    split
    next same =>
      subst same
      exact legal inside ok
    next other =>
      have kept : (t.stored (.chan e q) v).params.chans.get d = t.params.chans.get d :=
        (PerChan.get_set _ _ _ _).trans (if_neg other)
      rw [kept]
      exact ok d

theorem storeParam_enable (h : s.KeepsValues t) (e : ChanId) (v : Int) :
    s.KeepsValues (t.storeParam (.chan e .enable) v) := by
  rw [State.storeParam_enable]
  by_cases same : (t.chanParams e).enable = decide (1 ≤ v)
  · rw [if_pos same, State.stored_enable_held same]
    exact h
  · rw [if_neg same]
    by_cases on : 1 ≤ v
    · rw [if_pos on, State.enableChannel_stored]
      rw [decide_eq_true on, Bool.not_eq_true] at same
      refine h.channelStored ((State.MachineFrame.refl _).changeChannel e _) (State.changeChannel_channels _ _ _)
        (fun _ ok => ?_)
      rw [State.chanParams_stored_enable, decide_eq_true on]
      exact (ok e).enabled same _
    · rw [if_neg on]
      refine h.channelStored ((State.MachineFrame.refl _).disableChannel e) (State.changeChannel_channels _ _ _)
        (fun _ ok => ?_)
      rw [State.chanParams_stored_enable, decide_eq_false on]
      exact (ok e).disabled

/-- MODE or CPR stored on a disabled channel, and the position brought within its range (R44). -/
theorem rebound (h : s.KeepsValues t) {e : ChanId} (off : (t.chanParams e).enable = false) {q : ChanParam} (v : Int)
    (enable : ((t.stored (.chan e q) v).chanParams e).enable = (t.chanParams e).enable) :
    s.KeepsValues ((t.stored (.chan e q) v).reboundPosition e) := by
  refine h.channelStored ((State.MachineFrame.refl _).reboundPosition e) (State.reboundPosition_channels _ e)
    (fun inside ok => (ok e).rebound off (enable.trans off) ?_)
  obtain ⟨position, -⟩ := ok e
  exact position.rebound (inside.cpr e).2 (Params.InRange.cpr (Params.write_inRange inside (.chan e q) v) e).1

theorem storeParam_setup (h : s.KeepsValues t) {e : ChanId} (off : (t.chanParams e).enable = false) {q : ChanParam}
    (either : q = .mode ∨ q = .cpr) (v : Int) : s.KeepsValues (t.storeParam (.chan e q) v) := by
  have enable : ((t.stored (.chan e q) v).chanParams e).enable = (t.chanParams e).enable := by
    rw [State.chanParams_stored]
    rcases either with rfl | rfl <;> rfl
  have rebounded := h.rebound off v enable
  rcases either with rfl | rfl
  · exact rebounded.ite (rebounded.clearBound e) _
  · exact rebounded.ite (rebounded.clearBound e) _

theorem linkEnableChanged (h : s.KeepsValues t) (c : CamId) (on : Bool) : s.KeepsValues (t.linkEnableChanged c on) :=
  ((h.setLink _ _).ite h _).ite (((h.linkDown c).ite h _).setLink _ _) _

theorem camWritten (h : s.KeepsValues t) (c : CamId) {q : CamParam} (other : q ≠ .holdLimit) (old new : Int) :
    s.KeepsValues (t.camWritten c q old new) := by
  cases q
  case linkEnable => exact h.ite (h.linkEnableChanged c _) _
  case tapOverride => exact h.forceTapUpdate c
  case tapGate => exact (h.setLink _ _).ite h _
  case holdLimit => exact absurd rfl other
  case phaseSource => exact h.ite (h.clearTable c) _
  all_goals exact h

theorem chanWritten (h : s.KeepsValues t) (e : ChanId) {q : ChanParam} (other : q ≠ .enable ∧ q ≠ .mode ∧ q ≠ .cpr)
    (old new : Int) : s.KeepsValues (t.chanWritten e q old new) := by
  obtain ⟨notEnable, notMode, notCpr⟩ := other
  cases q
  case enable => exact absurd rfl notEnable
  case mode => exact absurd rfl notMode
  case cpr => exact absurd rfl notCpr
  case maxPeriod => exact h.maxPeriodWritten e
  case outThreshold => exact h.thresholdWritten e
  case inThreshold => exact h.thresholdWritten e
  all_goals exact h

theorem outWritten (h : s.KeepsValues t) (o : OutId) (q : OutParam) (old new : Int) :
    s.KeepsValues (t.outWritten o q old new) := by
  cases q
  case rasterRate => exact (h.setOutput _ _).ite h _
  all_goals exact h

theorem storeParam (h : s.KeepsValues t) (id : ParamId) (free : t.refusesBusy id = false) (v : Int) :
    s.KeepsValues (t.storeParam id v) := by
  have view := State.ViewFrame.refl (t.stored id v)
  cases id with
  | cam c q =>
    by_cases limit : q = .holdLimit
    · subst limit
      exact h.storeParam_holdLimit c v
    · exact (h.stored (by simp [limit]) (by simp) v).camWritten c limit _ _
  | chan e q =>
    by_cases enable : q = .enable
    · subst enable
      exact h.storeParam_enable e v
    · by_cases either : q = .mode ∨ q = .cpr
      · exact h.storeParam_setup (by rcases either with rfl | rfl <;> exact free) either v
      · have other := not_or.mp either
        exact (h.stored (by simp) (by simp [enable, other]) v).chanWritten e ⟨enable, other⟩ _ _
  | out o q => exact (h.stored (by simp) (by simp) v).outWritten o q _ _
  | dwell => exact (h.stored (by simp) (by simp) v).viewFrame ((view.dwellWritten _).dwellWritten _)
  | keepalive =>
    exact foldl (fun u k g => g.viewFrame ((State.ViewFrame.refl u).keepaliveWritten k)) _ (h.stored (by simp) (by simp) v)
  | augerOutput =>
    have kept := h.stored (id := .augerOutput) (by simp) (by simp) v
    exact kept.ite (kept.viewFrame view.augerOutputChanged) _
  | augerCamera =>
    have kept := h.stored (id := .augerCamera) (by simp) (by simp) v
    exact kept.ite (kept.viewFrame view.augerCameraChanged) _
  | augerPriority =>
    have kept := h.stored (id := .augerPriority) (by simp) (by simp) v
    exact kept.ite (kept.viewFrame view.augerPriorityChanged) _
  | nodeCode k =>
    have kept := h.stored (id := .nodeCode k) (by simp) (by simp) v
    exact kept.ite (kept.viewFrame (view.nodeCodeChanged k)) _
  | maxPriority k =>
    have kept := h.stored (id := .maxPriority k) (by simp) (by simp) v
    exact (kept.viewFrame (view.maxPriorityLowered k _)).ite kept _

theorem writeParam (h : s.KeepsValues t) (node : Byte) (number : Word) (id : ParamId) (v : Int) :
    s.KeepsValues (t.writeParam node number id v) := by
  cases locked : id.guarded && !t.setup
  · cases busy : t.refusesBusy id
    · unfold State.writeParam
      split
      · exact (h.storeParam id busy v).ask _
      · exact (h.storeParam id busy v).ask _
      · exact h.ask _
    · have refused : t.writeResult id v = .busy := by
        simp [State.writeResult, locked, busy]
      unfold State.writeParam
      rw [refused]
      exact h.ask _
  · have refused : t.writeResult id v = .locked := by
      simp [State.writeResult, locked]
    unfold State.writeParam
    rw [refused]
    exact h.ask _

/-! ### Commands and the soft reset -/

theorem whenBit (h : s.KeepsValues t) (bits : Word) (i : Nat) {f : State → State}
    (hf : ∀ u : State, s.KeepsValues u → s.KeepsValues (f u)) : s.KeepsValues (Machine.whenBit bits i f t) :=
  (hf _ h).ite h _
theorem clearCameraCounts (h : s.KeepsValues t) (c : CamId) : s.KeepsValues (t.clearCameraCounts c) :=
  (((h.setLink _ _).setRing _ _).setContext _ _).setTable c (fun ok => ok c)
theorem cameraCommands (h : s.KeepsValues t) (c : CamId) (bits : Word) :
    s.KeepsValues (Machine.cameraCommands c bits t) :=
  ((((h.whenBit bits 0 (fun _ g => g.linkReset c)).whenBit bits 1 (fun _ g => g.setContext _ _)).whenBit bits 2
    (fun _ g => g.clearTable c)).whenBit bits 3 (fun _ g => g.forceTapUpdate c)).whenBit bits 4
    (fun _ g => g.clearCameraCounts c)
theorem armIndex (h : s.KeepsValues t) (e : ChanId) : s.KeepsValues (t.armIndex e) :=
  h.setChannel e (fun _ ok => ok e)
theorem releaseCapture (h : s.KeepsValues t) (e : ChanId) : s.KeepsValues (t.releaseCapture e) :=
  h.setChannel e (fun _ ok => ok e)
theorem clearChannelCounts (h : s.KeepsValues t) (e : ChanId) : s.KeepsValues (t.clearChannelCounts e) :=
  h.setChannel e (fun _ ok => ok e)
theorem encoderCommands (h : s.KeepsValues t) (e : ChanId) (bits : Word) :
    s.KeepsValues (Machine.encoderCommands e bits t) :=
  (((h.whenBit bits 0 (fun _ g => g.clearPosition e)).whenBit bits 1 (fun _ g => g.armIndex e)).whenBit bits 2
    (fun _ g => g.releaseCapture e)).whenBit bits 3 (fun _ g => g.clearChannelCounts e)
theorem softResetLink (h : s.KeepsValues t) (c : CamId) : s.KeepsValues (t.softResetLink c) :=
  ((h.linkDown c).ite h _).setLink _ _

/-- The screens start afresh; parameters, tables and channels stay (R83). -/
theorem othersReset (h : s.KeepsValues t) : s.KeepsValues t.othersReset := by
  refine h.trans ⟨id, fun _ c => ?_, id, fun _ => id⟩
  cases c <;> exact Nat.zero_le _
theorem softReset (h : s.KeepsValues t) (node : Byte) (underWay : Bool) : s.KeepsValues (t.softReset node underWay) :=
  have linked := foldl (fun _ c g => g.softResetLink c) CamId.all ((((h.setMi _).ask _).ask _).ask _)
  (linked.othersReset.viewFrame (State.ViewFrame.refl _).augerCreate).ite linked.othersReset _

/-! ### Messages -/

theorem takeHead (h : s.KeepsValues t) : s.KeepsValues (Machine.takeHead t) := by
  rw [takeHead_rest]
  exact h.setMi _
theorem onReceipt (h : s.KeepsValues t) {f : State → State} (hf : ∀ u : State, s.KeepsValues u → s.KeepsValues (f u)) :
    s.KeepsValues (Machine.onReceipt f t) := (hf _ (h.setMi _)).ite h _
theorem fromNode (h : s.KeepsValues t) (node : Byte) {unknown : State → State} {known : ReqSlot → State → State}
    (hu : ∀ u : State, s.KeepsValues u → s.KeepsValues (unknown u))
    (hk : ∀ (k : ReqSlot) (u : State), s.KeepsValues u → s.KeepsValues (known k u)) :
    s.KeepsValues (Machine.fromNode node unknown known t) := by
  unfold Machine.fromNode
  split
  · exact hu _ h
  · exact hk _ _ (h.setArbiter _)
theorem paramMessage (h : s.KeepsValues t) (node : Byte) (id : ParamId) (value : BitVec 32) :
    s.KeepsValues (Machine.paramMessage node id value t) :=
  h.fromNode node (fun _ g => g.ask _) (fun _ _ g => g.writeParam _ _ _ _)
theorem paramReadMessage (h : s.KeepsValues t) (node : Byte) (number : Word) :
    s.KeepsValues (Machine.paramReadMessage node number t) := by
  refine h.fromNode node (fun _ g => g.ask _) (fun _ u g => ?_)
  split
  · exact g.ask _
  · exact g.ask _
  · exact g.ask _
theorem paramWriteMessage (h : s.KeepsValues t) (node : Byte) (number : Word) (value : BitVec 32) :
    s.KeepsValues (Machine.paramWriteMessage node number value t) := by
  refine h.fromNode node (fun _ g => g.ask _) (fun _ u g => ?_)
  split
  · exact g.writeParam _ _ _ _
  · exact g.ask _
  · exact g.ask _
theorem obey (h : s.KeepsValues t) (node : Byte) (target : Target) (bits : Word) (underWay : Bool) :
    s.KeepsValues (Machine.obey node target bits underWay t) := by
  cases target with
  | camera c => exact (h.cameraCommands c bits).ask _
  | encoder e => exact (h.encoderCommands e bits).ask _
  | device => exact (h.softReset node underWay).ite (h.ask _) _
theorem commandMessage (h : s.KeepsValues t) (node target : Byte) (bits : Word) (underWay : Bool) :
    s.KeepsValues (Machine.commandMessage node target bits underWay t) := by
  refine h.fromNode node (fun _ g => g.ask _) (fun _ u g => ?_)
  split
  · exact g.ask _
  · exact g.obey _ _ _ _
theorem freezeMessage (h : s.KeepsValues t) (node output action : Byte) :
    s.KeepsValues (Machine.freezeMessage node output action t) := by
  unfold Machine.freezeMessage
  dsimp only
  refine h.fromNode node (fun _ g => g.ask _) (fun k u g => ?_)
  have view := State.OutputFrame.refl u
  split
  · exact g.ask _
  · exact (g.ask _).ite ((g.ask _).ite ((g.viewFrame (view.freeze _ _ _).toViewFrame).ite
      (g.viewFrame (view.unfreeze _ _).toViewFrame) _) _) _
theorem viewRequestMessage (h : s.KeepsValues t) (node output layout camA camB priority : Byte) (hold : Word) :
    s.KeepsValues (Machine.viewRequestMessage node output layout camA camB priority hold t) := by
  refine h.fromNode node (fun _ g => g.ask _) (fun k u g => ?_)
  split
  · exact g.ask _
  · split
    · exact g.ask _
    · exact (g.viewFrame ((State.ViewFrame.refl u).receive _ _ _ _ _)).ask _
theorem viewReleaseMessage (h : s.KeepsValues t) (node output : Byte) :
    s.KeepsValues (Machine.viewReleaseMessage node output t) := by
  refine h.fromNode node (fun _ g => g.ask _) (fun k u g => ?_)
  split
  · exact g.ask _
  · split
    · exact g.ask _
    · exact (g.viewFrame ((State.ViewFrame.refl u).remove _ _)).ask _
theorem keepaliveMessage (h : s.KeepsValues t) (node : Byte) : s.KeepsValues (Machine.keepaliveMessage node t) :=
  h.fromNode node (fun _ g => g) (fun _ _ g => g)

/-- A frame, whatever message it carries. -/
theorem takeFrame (h : s.KeepsValues t) (f : CanFrame) : s.KeepsValues (Machine.takeFrame f t) := by
  unfold Machine.takeFrame
  split
  · exact h
  next kind _ =>
    cases kind with
    | viewRequest => exact h.viewRequestMessage _ _ _ _ _ _ _
    | viewRelease => exact h.viewReleaseMessage _ _
    | freeze => exact h.freezeMessage _ _ _
    | paramWrite => exact h.paramWriteMessage _ _ _
    | paramRead => exact h.paramReadMessage _ _
    | command => exact h.commandMessage _ _ _ _
    | keepalive => exact h.keepaliveMessage _

/-! ### Commands of the part -/

/-- An event does its work in the running part, and nothing in the held one. -/
theorem event {f : State → State} (work : ∀ u : State, s.KeepsValues u → s.KeepsValues (f u))
    (e : Machine.event f s = .next t) : s.KeepsValues t := by
  cases held : s.held
  · rw [event_running held] at e
    cases e
    exact (work s (refl s)).takeHead
  · rw [event_held held] at e
    cases e
    exact refl s

theorem message {f : State → State} (work : ∀ u : State, s.KeepsValues u → s.KeepsValues (f u))
    (e : Machine.event (Machine.onReceipt f) s = .next t) : s.KeepsValues t :=
  event (fun _ h => h.onReceipt work) e

theorem paramRow {node : Byte} {id : ParamId} {value : BitVec 32}
    (e : Machine.event (Machine.onReceipt (Machine.paramMessage node id value)) s = .next t) : s.KeepsValues t :=
  message (fun _ g => g.paramMessage node id value) e

theorem bitRow {node : Byte} {target : Target} {bits : Word} {i : Nat}
    (e : Machine.event (Machine.onReceipt (Machine.bitCommand node target bits i false)) s = .next t) : s.KeepsValues t :=
  message (fun _ g => g.commandMessage node target.byte _ false) e

theorem referenceUnlock {c : CamId} (e : execReferenceUnlock c s = .next t) : s.KeepsValues t := by
  refine event (fun u h => ?_) e
  split
  · exact h.failAttempt c
  · exact h.leaveLocked c
  all_goals exact h

theorem wordClock {c : CamId} (e : execWordClock c s = .next t) : s.KeepsValues t := by
  refine event (fun u h => ?_) e
  split
  · exact h.setLink _ _
  · exact h.setLink _ _
  all_goals exact h

theorem pixelWord {c : CamId} {w : Word} (e : execPixelWord c w s = .next t) : s.KeepsValues t := by
  refine event (fun u h => ?_) e
  split
  · exact h.setLink _ _
  · exact h.setLink _ _
  all_goals exact h

theorem quadratureEdge {c : ChanId} {a b : Bool} (e : execQuadratureEdge c a b s = .next t) : s.KeepsValues t := by
  refine event (fun u h => ?_) e
  dsimp only
  split
  · exact h.setChannel c (fun _ ok => ok c)
  · exact h.changeChannel c (fun _ ok => (ok c).quadrature a b)

theorem indexEdge {c : ChanId} {level : Bool} (e : execIndexEdge c level s = .next t) : s.KeepsValues t := by
  refine event (fun u h => ?_) e
  dsimp only
  split
  · exact h.setChannel c (fun _ ok => ok c)
  · refine h.noticedChange c _ _ _ (fun inside ok => ?_)
    have raised : ((u.channel c).raised level).Ok (u.chanParams c) := ok c
    exact raised.risingIndex (inside.indexPosition c _) _

theorem stopWatchExpiry {c : ChanId} (e : execStopWatchExpiry c s = .next t) : s.KeepsValues t := by
  refine event (fun u h => ?_) e
  split
  · exact h
  next watched => exact (h.stopChannel c watched).ite h _

theorem timedExpiry {r : Requester} {o : OutId} (e : execTimedExpiry r o s = .next t) : s.KeepsValues t := by
  refine event (fun u h => ?_) e
  split
  · exact h
  · exact (h.viewFrame ((State.ViewFrame.refl u).remove _ _)).ite h _

theorem keepaliveExpiry {k : ReqSlot} (e : execKeepaliveExpiry k s = .next t) : s.KeepsValues t := by
  refine event (fun u h => ?_) e
  split
  · exact h
  · exact (h.viewFrame ((State.ViewFrame.refl u).expire _)).ite h _

theorem encoderTimer (e : execEncoderTimer s = .next t) : s.KeepsValues t := by
  refine event (fun u h => ite ?_ h _) e
  dsimp only
  split
  · exact h.setMi _
  · exact ((h.setMi _).setMi _).ask _

theorem softResetRow {node : Byte} {bits : Word} {underWay : Bool} (e : execSoftReset node bits underWay s = .next t) :
    s.KeepsValues t :=
  event (fun _ h => (h.commandMessage _ _ _ _).ite (h.onReceipt (fun _ g => g.commandMessage _ _ _ _)) _) e

theorem powerUp (s : State) (l : BootLevels) : s.KeepsValues (s.powerUp l) := (start s l).of_same rfl rfl rfl rfl

theorem tick (s : State) : s.KeepsValues (Machine.tick s) := by
  cases held : s.held
  · rw [tick_of_running held]
    exact (refl s).of_same rfl rfl rfl rfl
  · rw [tick_of_held held]
    exact refl s

/-- Every command keeps the values within their bounds and the channels legal. -/
theorem exec (i : Instr) (e : Machine.exec i s = .next t) : s.KeepsValues t := by
  cases i with
  | powerOn l => cases e; exact powerUp s l
  | resetLine l => cases e; exact powerUp s l
  | resetLineActive => cases e; exact (powerUp s s.pinLevels).of_same rfl rfl rfl rfl
  | setupLineChange level => cases e; exact (refl s).of_same rfl rfl rfl rfl
  | referenceLock c _ => exact event (fun u h => (h.setLink c _).ite h _) e
  | acquireTimeout c => exact event (fun u h => (h.failAttempt c).ite h _) e
  | gateEnd c => exact event (fun u h => ((h.setLink c _).ite (h.failAttempt c) _).ite h _) e
  | referenceUnlock c => exact referenceUnlock e
  | backoffEnd c => exact event (fun u h => (h.setLink c _).ite h _) e
  | signalLoss c => exact event (fun u h => (h.leaveLocked c).ite h _) e
  | frameStart c n _ => exact event (fun u h => h.marker c 2 (fun _ g => (g.setOffered c _).takeFrameStart c n)) e
  | lineStart c _ =>
    exact event (fun u h => h.marker c 2 (fun _ g => g.whileReceiving c (fun k _ g => g.takeLineStart c k _))) e
  | pixelWord c w => exact pixelWord e
  | lineEnd c w =>
    exact event (fun u h => h.marker c 2 (fun _ g => g.whileReceiving c (fun k _ g => g.takeLineEnd c k w))) e
  | frameEnd c _ => exact event (fun u h => h.marker c 1 (fun _ g => (g.setOffered c _).takeFrameEnd c)) e
  | wordClock c => exact wordClock e
  | jobCompletion => exact event (fun _ h => h.completeJob) e
  | quadratureEdge c _ _ => exact quadratureEdge e
  | indexEdge c _ => exact indexEdge e
  | stopWatchExpiry c => exact stopWatchExpiry e
  | outputFrameStart o =>
    exact event (fun u h => (h.viewFrame ((State.OutputFrame.refl u).outputFrame o).toViewFrame).ite h _) e
  | viewRequest => exact message (fun _ g => g.viewRequestMessage _ _ _ _ _ _ _) e
  | viewRelease => exact message (fun _ g => g.viewReleaseMessage _ _) e
  | timedExpiry r o => exact timedExpiry e
  | keepaliveExpiry k => exact keepaliveExpiry e
  | dwellExpiry o => exact event (fun u h => (h.viewFrame ((State.ViewFrame.refl u).dwellElapsed o)).ite h _) e
  | freeze => exact message (fun _ g => g.freezeMessage _ _ _) e
  | unfreeze => exact message (fun _ g => g.freezeMessage _ _ _) e
  | copyCompletion => exact event (fun u h => h.viewFrame (State.OutputFrame.refl u).completeCopy.toViewFrame) e
  | paramWrite => exact message (fun _ g => g.paramWriteMessage _ _ _) e
  | paramRead => exact message (fun _ g => g.paramReadMessage _ _) e
  | keepalive => exact message (fun _ g => g.keepaliveMessage _) e
  | canFrameIgnored f => exact message (fun _ g => g.takeFrame f) e
  | linkReset => exact bitRow e
  | refRefresh => exact bitRow e
  | tableClear => exact bitRow e
  | forceTapUpdate => exact message (fun _ g => (g.setOffered _ _).commandMessage _ _ _ _) e
  | clearCounts => exact bitRow e
  | clearPosition => exact bitRow e
  | armIndex => exact bitRow e
  | releaseCapture => exact bitRow e
  | clearCountsEncoder => exact bitRow e
  | softReset => exact softResetRow e
  | command => exact message (fun _ g => g.commandMessage _ _ _ _) e
  | linkEnable => exact paramRow e
  | tapOverride => exact message (fun _ g => (g.setOffered _ _).paramMessage _ _ _) e
  | tapGate => exact message (fun _ g => (g.setOffered _ _).paramMessage _ _ _) e
  | holdLimit => exact paramRow e
  | phaseSource => exact paramRow e
  | enable => exact paramRow e
  | mode => exact paramRow e
  | cpr => exact paramRow e
  | maxPeriod => exact paramRow e
  | outThreshold => exact paramRow e
  | inThreshold => exact paramRow e
  | dwell => exact paramRow e
  | keepaliveParamWrite => exact paramRow e
  | augerPriority => exact paramRow e
  | augerCamera => exact paramRow e
  | augerOutput => exact paramRow e
  | slotNodeCode => exact paramRow e
  | slotMaxPriority => exact paramRow e
  | viewStatusTimer => exact event (fun u h => (((h.setMi _).ask _).ask _).ite h _) e
  | cameraTimer => exact event (fun u h => ((h.setMi _).ask _).ite h _) e
  | encoderTimer => exact encoderTimer e
  | frameSent => exact event (fun u h => (h.setMi _).ite h _) e
  | transmitError => exact event (fun u h => (h.setMi _).ite h _) e
  | receiveError => exact event (fun u h => (h.setMi _).ite h _) e
  | busJoin => exact event (fun u h => (h.setMi _).ite h _) e
  | busOffRecovery => exact event (fun u h => ((h.setMi _).ite (h.setMi _) _).ite h _) e

/-- So does every step: an idle one moves the timebase alone. -/
theorem step (e : Machine.step s = .next t) : s.KeepsValues t := by
  cases front : s.pending with
  | nil =>
    rw [step_of_pending_nil front] at e
    cases e
    exact tick s
  | cons i rest =>
    rw [step_of_pending_cons front] at e
    have waiting : s.KeepsValues { s with pending := rest } := (refl s).of_same rfl rfl rfl rfl
    exact waiting.trans (exec i e)

end State.KeepsValues

end Sys2Proof.Machine

open Sys2Proof Sys2Proof.Machine

/-- Settles O6: every step keeps the bounded values within their bounds. -/
theorem valuesStayInRange : Obligations.ValuesStayInRange := by
  unfold Obligations.ValuesStayInRange
  intro s t e
  have kept := State.KeepsValues.step e
  exact ⟨kept.params, kept.screens, kept.tables⟩

/-- Settles O8: every step keeps the channels legal, as long as the parameters are within their ranges. -/
theorem channelsStayLegal : Obligations.ChannelsStayLegal := by
  unfold Obligations.ChannelsStayLegal
  intro s t inside legal e
  exact (State.KeepsValues.step e).channels inside legal

end

section
/-! The still unit's copies by output: which outputs a copy is pending or running for, and what the ends of a copy and the
next start make of that (R175, R176, R181). -/

namespace Sys2Proof.Machine

variable {s : State} {u : StillUnit} {o : OutId}

/-! ### Outputs without a copy -/

/-- No copy of output `o` is pending or running. -/
def StillUnit.Clear (u : StillUnit) (o : OutId) : Prop :=
  (∀ r ∈ u.waiting, r.output ≠ o) ∧ ∀ r src, u.running = some (r, src) → r.output ≠ o

theorem StillUnit.pendingOf_eq_none : u.pendingOf o = none ↔ ∀ r ∈ u.waiting, r.output ≠ o := by
  simp [StillUnit.pendingOf, List.find?_eq_none]

theorem StillUnit.runningOf_eq_none : u.runningOf o = none ↔ ∀ r src, u.running = some (r, src) → r.output ≠ o := by
  unfold StillUnit.runningOf
  cases u.running with
  | none => simp
  | some copy =>
    obtain ⟨r, src⟩ := copy
    by_cases same : r.output = o <;> simp [same]

theorem StillUnit.busy_eq_false : u.busy o = false ↔ u.Clear o := by
  simp only [StillUnit.busy, Bool.or_eq_false_iff, Option.isSome_eq_false_iff, Option.isNone_iff_eq_none,
    StillUnit.pendingOf_eq_none, StillUnit.runningOf_eq_none, StillUnit.Clear]

/-- The running copy's output has no other copy. -/
def StillUnit.Apart (u : StillUnit) : Prop := ∀ r src, u.running = some (r, src) → ∀ q ∈ u.waiting, q.output ≠ r.output

theorem State.copiesOk_iff : s.CopiesOk ↔ (s.stillUnit.running = none → s.stillUnit.waiting = []) ∧
    (s.stillUnit.waiting.map (·.output)).Nodup ∧ s.stillUnit.Apart := by
  refine and_congr_right (fun _ => and_congr_right (fun _ => ⟨fun apart r src running => ?_, fun apart o some => ?_⟩))
  · refine StillUnit.pendingOf_eq_none.mp (apart r.output ?_)
    simp [StillUnit.runningOf, running]
  · rw [StillUnit.pendingOf_eq_none]
    unfold StillUnit.runningOf at some
    cases running : s.stillUnit.running with
    | none => simp [running] at some
    | some copy =>
      obtain ⟨r, src⟩ := copy
      have same : r.output = o := by
        by_contra other
        simp [running, other] at some
      exact same ▸ apart r src running

/-! ### Pins and starts -/

theorem State.pinSource_unit (s : State) (w : WinSource) :
    (s.pinSource w).stillUnit = s.stillUnit ∧ (s.pinSource w).outputs = s.outputs := by
  unfold State.pinSource
  split <;> exact ⟨rfl, rfl⟩

theorem State.unpinSource_unit (s : State) (w : WinSource) :
    (s.unpinSource w).stillUnit = s.stillUnit ∧ (s.unpinSource w).outputs = s.outputs := by
  unfold State.unpinSource
  split <;> exact ⟨rfl, rfl⟩

theorem State.foldl_unit {f : State → WinSource → State}
    (each : ∀ u w, (f u w).stillUnit = u.stillUnit ∧ (f u w).outputs = u.outputs) (ws : List WinSource) (s : State) :
    (ws.foldl f s).stillUnit = s.stillUnit ∧ (ws.foldl f s).outputs = s.outputs := by
  induction ws generalizing s with
  | nil => exact ⟨rfl, rfl⟩
  | cons w ws ih =>
    obtain ⟨unit, outputs⟩ := each s w
    obtain ⟨unit', outputs'⟩ := ih (f s w)
    exact ⟨unit'.trans unit, outputs'.trans outputs⟩

theorem State.startCopy_unit (s : State) (r : CopyRecord) (src : Sources) :
    (s.startCopy r src).stillUnit.running = some (r, src) ∧
    (s.startCopy r src).stillUnit.waiting = s.stillUnit.waiting ∧ (s.startCopy r src).outputs = s.outputs := by
  unfold State.startCopy
  obtain ⟨unit, outputs⟩ := State.foldl_unit State.pinSource_unit src.windows _
  rw [unit, outputs]
  exact ⟨rfl, rfl, rfl⟩

/-- Of the waiting copies one starts and those behind it wait on, or none is left. -/
theorem State.startFrom_unit (s : State) (l : List CopyRecord) : (s.startFrom l).outputs = s.outputs ∧
    (((s.startFrom l).stillUnit.running = s.stillUnit.running ∧ (s.startFrom l).stillUnit.waiting = []) ∨
      ∃ r rest src, r :: rest <:+ l ∧ (s.startFrom l).stillUnit.running = some (r, src) ∧
        (s.startFrom l).stillUnit.waiting = rest) := by
  induction l generalizing s with
  | nil => exact ⟨rfl, .inl ⟨rfl, rfl⟩⟩
  | cons r rest ih =>
    unfold State.startFrom
    dsimp only
    split
    · obtain ⟨running, waiting, outputs⟩ :=
        State.startCopy_unit (s.setStillUnit { s.stillUnit with waiting := rest }) r (s.output r.output).answer
      exact ⟨outputs, .inr ⟨r, rest, _, List.suffix_refl _, running, waiting⟩⟩
    · obtain ⟨outputs, none | ⟨q, others, src, behind, running, waiting⟩⟩ := ih (s.answerFreeze r .noFrame)
      · exact ⟨outputs, .inl none⟩
      · exact ⟨outputs, .inr ⟨q, others, src, behind.trans (List.suffix_cons _ _), running, waiting⟩⟩

theorem State.startPending_outputs (s : State) : s.startPending.outputs = s.outputs := by
  unfold State.startPending
  split
  · exact (s.startFrom_unit _).1
  · rfl

/-- The next start keeps the copies in order, and gives no output one. -/
theorem State.startPending_copies (once : (s.stillUnit.waiting.map (·.output)).Nodup) (apart : s.stillUnit.Apart) :
    s.startPending.CopiesOk ∧ ∀ q, s.stillUnit.Clear q → s.startPending.stillUnit.Clear q := by
  rw [State.copiesOk_iff]
  unfold State.startPending
  cases idle : s.stillUnit.running with
  | some copy => exact ⟨⟨fun none => by simp [idle] at none, once, apart⟩, fun _ clear => clear⟩
  | none =>
    obtain ⟨-, ⟨running, waiting⟩ | ⟨r, rest, src, behind, running, waiting⟩⟩ := s.startFrom_unit s.stillUnit.waiting
    · unfold StillUnit.Apart StillUnit.Clear
      dsimp only
      rw [running, waiting, idle]
      simp
    · have onceBehind : ((r :: rest).map (·.output)).Nodup := once.sublist (behind.sublist.map _)
      obtain ⟨first, later⟩ := List.nodup_cons.mp onceBehind
      unfold StillUnit.Apart StillUnit.Clear
      dsimp only
      rw [running, waiting]
      refine ⟨⟨nofun, later, fun q src same x member other => ?_⟩, fun q clear => ⟨fun x member => ?_, fun x src same => ?_⟩⟩
      · cases same
        exact first (List.mem_map.mpr ⟨x, member, other⟩)
      · exact clear.1 x (behind.subset (List.mem_cons_of_mem _ member))
      · cases same
        exact clear.1 r (behind.subset List.mem_cons_self)

/-! ### The end of a copy (R180, R181) -/

theorem State.endCopy_outputs (s : State) (o : OutId) (res : Result) (f : Still → Still) :
    (s.endCopy o res f).outputs = s.outputs := by
  unfold State.endCopy
  split
  · rfl
  · refine (State.startPending_outputs _).trans ?_
    exact (State.foldl_unit State.unpinSource_unit _ s).2
  · rfl

/-- The end of an output's copy leaves it none, and gives no other output one. -/
theorem State.endCopy_copies (h : s.CopiesOk) (o : OutId) (res : Result) (f : Still → Still) :
    (s.endCopy o res f).CopiesOk ∧ (s.endCopy o res f).stillUnit.Clear o ∧
      ∀ q, s.stillUnit.Clear q → (s.endCopy o res f).stillUnit.Clear q := by
  obtain ⟨idle, once, apart⟩ := State.copiesOk_iff.mp h
  unfold State.endCopy
  cases pending : s.stillUnit.pendingOf o with
  | some r =>
    dsimp only
    have kept (x : CopyRecord) (member : x ∈ s.stillUnit.waiting.filter (fun q => decide (q.output ≠ o))) :
        x ∈ s.stillUnit.waiting ∧ x.output ≠ o := by simpa using member
    refine ⟨State.copiesOk_iff.mpr ⟨fun none => ?_, ?_, fun q src running x member => ?_⟩, ⟨fun x member => ?_, fun q src
      running same => ?_⟩, fun q clear => ⟨fun x member => ?_, clear.2⟩⟩
    · have empty := idle none
      change s.stillUnit.waiting.filter _ = []
      rw [empty]
      rfl
    · exact once.sublist (List.filter_sublist.map _)
    · exact apart q src running x (kept x member).1
    · exact (kept x member).2
    · have none : s.stillUnit.pendingOf o = none :=
        StillUnit.pendingOf_eq_none.mpr (same ▸ apart q src running)
      rw [pending] at none
      cases none
    · exact clear.1 x (kept x member).1
  | none =>
    have noneWaits := StillUnit.pendingOf_eq_none.mp pending
    cases running : s.stillUnit.runningOf o with
    | none => exact ⟨h, ⟨noneWaits, StillUnit.runningOf_eq_none.mp running⟩, fun _ clear => clear⟩
    | some copy =>
      obtain ⟨r, src⟩ := copy
      dsimp only
      have unit := (State.foldl_unit State.unpinSource_unit src.windows s).1
      have waiting : (((s.stopCopy src).setStill o (f ((s.stopCopy src).still o))).answerFreeze r
          res).stillUnit.waiting = s.stillUnit.waiting := by
        change (src.windows.foldl State.unpinSource s).stillUnit.waiting = _
        rw [unit]
      have stopped : (((s.stopCopy src).setStill o (f ((s.stopCopy src).still o))).answerFreeze r
          res).stillUnit.running = none := rfl
      obtain ⟨copies, clear⟩ := State.startPending_copies (s := ((s.stopCopy src).setStill o
        (f ((s.stopCopy src).still o))).answerFreeze r res) (by rw [waiting]; exact once) (fun q src' => by simp [stopped])
      have freed (q : OutId) (noneWaits : ∀ x ∈ s.stillUnit.waiting, x.output ≠ q) := clear q
        ⟨by rw [waiting]; exact noneWaits, fun x src' => by simp [stopped]⟩
      exact ⟨copies, freed o noneWaits, fun q before => freed q before.1⟩

end Sys2Proof.Machine

end

section
/-! The view arbiter at one output: what a grant change, an arbitration, a receipt and a removal make of the output, and that
they leave the other output alone (R158–R165). -/

namespace Sys2Proof.Machine

variable {s t u : State} {o : OutId} {r : Requester}

/-! ### Messages asked for -/

theorem State.AskedFor.before {m : Message} (h : u.AskedFor t m) (earlier : s.mi.Asked u.mi) : s.AskedFor t m := by
  obtain ⟨ms, member, asked⟩ := h
  obtain ⟨ns, -, first⟩ := earlier
  exact ⟨ns ++ ms, List.mem_append_right _ member, by rw [asked, first, List.foldl_append]⟩

theorem State.AskedFor.after {m : Message} (h : s.AskedFor t m) (later : t.mi.Asked u.mi) : s.AskedFor u m := by
  obtain ⟨ms, member, asked⟩ := h
  obtain ⟨ns, -, last⟩ := later
  exact ⟨ms ++ ns, List.mem_append_left _ member, by rw [last, asked, List.foldl_append]⟩

/-! ### The best entry (R158) -/

/-- Of entries of the best one's priority none is later. -/
theorem bestOf_latest {l : List (Requester × Entry)} {b : Requester × Entry} (h : bestOf l = some b) :
    ∀ e ∈ l, e.2.priority < b.2.priority ∨ (e.2.priority = b.2.priority ∧ e.2.order ≤ b.2.order) := by
  induction l generalizing b with
  | nil => cases h
  | cons a l ih =>
    intro e member
    unfold bestOf at h
    cases rest : bestOf l with
    | none =>
      rw [rest] at h
      cases h
      rw [bestOf_none rest, List.mem_singleton] at member
      exact .inr (by simp [member])
    | some c =>
      simp only [rest] at h
      have behind := ih rest
      by_cases above : ranksAbove a c = true
      · rw [if_pos above] at h
        cases h
        have ranks : c.2.priority < a.2.priority ∨ (c.2.priority = a.2.priority ∧ c.2.order < a.2.order) := by
          simpa [ranksAbove] using above
        rcases List.mem_cons.mp member with rfl | member
        · exact .inr ⟨rfl, le_refl _⟩
        · have := behind e member
          omega
      · rw [if_neg above] at h
        have same : c = b := Option.some.inj h
        subst same
        have below : ¬(c.2.priority < a.2.priority ∨ (c.2.priority = a.2.priority ∧ c.2.order < a.2.order)) := by
          simpa [ranksAbove] using above
        rcases List.mem_cons.mp member with rfl | member
        · omega
        · exact behind e member

theorem State.best_of_bestOf {b : Requester × Entry} (h : bestOf (t.requests o).entries = some b) :
    t.entry? o b.1 = some b.2 ∧ t.Best o b.1 := by
  have entry : t.entry? o b.1 = some b.2 := ((t.requests o).mem_entries _ _).mp (bestOf_spec h).1
  exact ⟨entry, b.2, entry, fun q e' other => bestOf_latest h (q, e') (((t.requests o).mem_entries _ _).mpr other)⟩

theorem Requests.bestOf_none_iff {t : Requests} : bestOf t.entries = none ↔ ∀ q, t.get q = none := by
  refine ⟨fun none q => ?_, fun none => ?_⟩
  · cases entry : t.get q with
    | none => rfl
    | some e =>
      have member := (t.mem_entries q e).mpr entry
      rw [bestOf_none none] at member
      cases member
  · cases best : bestOf t.entries with
    | none => rfl
    | some b =>
      have entry := (t.mem_entries b.1 b.2).mp (bestOf_spec best).1
      rw [none] at entry
      cases entry

/-- No candidate stands behind a grant that no entry is later than. -/
theorem Requests.candidateFor_none {t : Requests} {g : OutGrant}
    (late : ∀ q e, t.get q = some e → e.order ≤ g.grantOrder) : t.candidateFor g = none := by
  cases candidate : t.candidateFor g with
  | none => rfl
  | some q =>
    unfold Requests.candidateFor at candidate
    split at candidate
    · cases candidate
    · split at candidate
      · cases candidate
      · obtain ⟨b, best, rfl⟩ := Option.map_eq_some_iff.mp candidate
        obtain ⟨member, kept⟩ := List.mem_filter.mp (bestOf_spec best).1
        have early := late _ _ ((t.mem_entries _ _).mp member)
        simp only [Bool.and_eq_true, decide_eq_true_eq] at kept
        omega

/-! ### A grant change (R165) -/

theorem State.grantChange_outputs (s : State) (o : OutId) : (s.grantChange o).outputs =
    s.outputs.set o { s.output o with grant := s.grantedView o, frozen := false } :=
  State.endCopy_outputs (s.handGrant o (s.grantedView o)) o _ _

theorem State.grantChange_copies (h : s.CopiesOk) (o : OutId) : (s.grantChange o).CopiesOk ∧
    (s.grantChange o).stillUnit.Clear o ∧ ∀ q, s.stillUnit.Clear q → (s.grantChange o).stillUnit.Clear q :=
  State.endCopy_copies (s := s.handGrant o (s.grantedView o)) h o _ _

theorem State.grantChange_asks (s : State) (o : OutId) : s.AskedFor (s.grantChange o) (.viewStatus o) := by
  obtain ⟨ms, -, asked⟩ := ((State.OutputFrame.refl (s.handGrant o (s.grantedView o))).abortCopy o).mi
  refine ⟨ms ++ [.viewStatus o], by simp, ?_⟩
  rw [List.foldl_append]
  exact congrArg (Interface.place · (.viewStatus o)) asked

theorem State.grantChange_outGrant (s : State) (o : OutId) : (s.grantChange o).outGrant o =
    { s.outGrant o with grantCount := bump (s.outGrant o).grantCount } := by
  simp [State.outGrant, State.grantChange_arbiter]

theorem State.setOutGrant_outGrant (s : State) (o : OutId) (g : OutGrant) : (s.setOutGrant o g).outGrant o = g := by
  simp [State.setOutGrant, State.outGrant]

/-- A grant that no entry is later than leaves no candidate. -/
theorem State.grantTo_eq (late : ∀ q e, s.entry? o q = some e → e.order ≤ s.arbiter.receipts) (r : Requester) :
    s.grantTo o r = (s.setOutGrant o
      { holder := some r, grantTime := s.timebase, dwellRunning := decide (0 < s.params.dwell), candidate := none
        grantCount := (s.outGrant o).grantCount, grantOrder := s.arbiter.receipts }).grantChange o := by
  unfold State.grantTo
  dsimp only
  rw [State.setOutGrant_formCandidate, Requests.candidateFor_none (by exact late)]

section
variable (outputs : u.outputs = s.outputs) (mi : u.mi = s.mi) (copies : u.CopiesOk)
include outputs mi copies

/-- The grant change of an output just given to a requester with an entry. -/
theorem State.grantChange_granted {e : Entry} (received : s.arbiter.receipts ≤ u.arbiter.receipts)
    (entry : u.entry? o r = some e) (given : u.outGrant o =
      { holder := some r, grantTime := s.timebase, dwellRunning := decide (0 < s.params.dwell), candidate := none
        grantCount := (s.outGrant o).grantCount, grantOrder := u.arbiter.receipts }) :
    s.GrantedTo (u.grantChange o) o r := by
  have view : u.grantedView o = some e.view := by
    unfold State.grantedView State.holderEntry?
    rw [given]
    exact congrArg (Option.map Entry.view) entry
  refine ⟨?_, ?_, ⟨e, ?_, ?_⟩, StillUnit.busy_eq_false.mpr (State.grantChange_copies copies o).2.1, ?_⟩
  · rw [State.grantChange_outGrant, given]
  · rw [State.grantChange_outGrant, given, State.grantChange_arbiter]
    exact ⟨received, le_refl _⟩
  · unfold State.entry? State.requests
    rw [State.grantChange_arbiter]
    exact entry
  · unfold State.output
    rw [State.grantChange_outputs, view, PerOut.get_set, if_pos rfl, State.output, outputs]
  · exact (u.grantChange_asks o).before (by rw [mi]; exact .refl _)

/-- The grant change of an output just left without a holder. -/
theorem State.grantChange_defaulted (given : u.outGrant o =
    { s.outGrant o with holder := none, dwellRunning := false, candidate := none }) :
    s.Defaulted (u.grantChange o) o := by
  have view : u.grantedView o = none := by
    unfold State.grantedView State.holderEntry?
    rw [given]
    rfl
  refine ⟨?_, ?_, StillUnit.busy_eq_false.mpr (State.grantChange_copies copies o).2.1, ?_⟩
  · rw [State.grantChange_outGrant, given]
  · unfold State.output
    rw [State.grantChange_outputs, view, PerOut.get_set, if_pos rfl, State.output, outputs]
  · exact (u.grantChange_asks o).before (by rw [mi]; exact .refl _)

end

/-! ### Grants -/

section
variable {a : Arbiter} (outs : a.outs = s.arbiter.outs)
include outs

theorem State.outGrant_of_outs (o : OutId) : (s.setArbiter a).outGrant o = s.outGrant o := by
  unfold State.outGrant
  rw [← outs]
  rfl

variable (copies : s.CopiesOk)
include copies

/-- An output of state `s` granted to a requester with an entry, the table and the receipts having moved on to `a`. -/
theorem State.grantTo_granted {e : Entry} (received : s.arbiter.receipts ≤ a.receipts)
    (late : ∀ q e, (a.table.get o).get q = some e → e.order ≤ a.receipts) (entry : (a.table.get o).get r = some e) :
    s.GrantedTo ((s.setArbiter a).grantTo o r) o r := by
  rw [State.grantTo_eq (s := s.setArbiter a) late, State.outGrant_of_outs outs]
  exact State.grantChange_granted (by rfl) (by rfl) copies received entry (State.setOutGrant_outGrant _ o _)

/-- An output of state `s` granted its default view. -/
theorem State.grantDefault_defaulted (o : OutId) : s.Defaulted ((s.setArbiter a).grantDefault o) o := by
  unfold State.grantDefault
  rw [State.outGrant_of_outs outs]
  exact State.grantChange_defaulted (by rfl) (by rfl) copies (State.setOutGrant_outGrant _ o _)

end

/-! ### Arbitration of one output -/

/-- Output `o` is arbitrated: table and receipts stay, and of the other output everything does, but that its copy may start
in place of an aborted one. -/
structure State.Regrants (s t : State) (o : OutId) : Prop where
  table : t.arbiter.table = s.arbiter.table
  receipts : t.arbiter.receipts = s.arbiter.receipts
  outGrant : ∀ q, q ≠ o → t.outGrant q = s.outGrant q
  output : ∀ q, q ≠ o → t.output q = s.output q
  copies : s.CopiesOk → t.CopiesOk ∧ ∀ q, s.stillUnit.Clear q → t.stillUnit.Clear q
  view : s.ViewFrame t

namespace State.Regrants

theorem trans (h : s.Regrants t o) (g : t.Regrants u o) : s.Regrants u o where
  table := g.table.trans h.table
  receipts := g.receipts.trans h.receipts
  outGrant q other := (g.outGrant q other).trans (h.outGrant q other)
  output q other := (g.output q other).trans (h.output q other)
  copies ok :=
    have ⟨ok', clear⟩ := h.copies ok
    have ⟨ok'', clear'⟩ := g.copies ok'
    ⟨ok'', fun q before => clear' q (clear q before)⟩
  view := h.view.trans g.view

theorem setOutGrant (s : State) (o : OutId) (g : OutGrant) : s.Regrants (s.setOutGrant o g) o where
  table := rfl
  receipts := rfl
  outGrant q other := (s.setOutGrant_elsewhere o g q other).2
  output _ _ := rfl
  copies ok := ⟨ok, fun _ clear => clear⟩
  view := (State.ViewFrame.refl s).setOutGrant o g

theorem grantChange (s : State) (o : OutId) : s.Regrants (s.grantChange o) o where
  table := by rw [State.grantChange_arbiter]
  receipts := by rw [State.grantChange_arbiter]
  outGrant q other := (s.grantChange_elsewhere o q other).2
  output q other := by
    unfold State.output
    rw [State.grantChange_outputs, PerOut.get_set, if_neg other]
  copies ok :=
    have ⟨ok', _, clear⟩ := State.grantChange_copies ok o
    ⟨ok', clear⟩
  view := (State.ViewFrame.refl s).grantChange o

theorem formCandidate (s : State) (o : OutId) : s.Regrants (s.formCandidate o) o := setOutGrant s o _
theorem grantTo (s : State) (o : OutId) (r : Requester) : s.Regrants (s.grantTo o r) o :=
  ((setOutGrant s o _).trans (formCandidate _ o)).trans (grantChange _ o)
theorem grantDefault (s : State) (o : OutId) : s.Regrants (s.grantDefault o) o :=
  (setOutGrant s o _).trans (grantChange _ o)
theorem grantBest (s : State) (o : OutId) : s.Regrants (s.grantBest o) o := by
  unfold State.grantBest
  split
  · exact grantTo s o _
  · exact grantDefault s o
theorem afterReceipt (s : State) (o : OutId) (r : Requester) (e : Entry) : s.Regrants (s.afterReceipt o r e) o := by
  unfold State.afterReceipt
  dsimp only
  split
  · exact grantTo s o r
  · split
    · split
      · exact grantTo s o r
      · exact grantBest s o
    · split
      · exact grantBest s o
      · split
        · exact grantTo s o r
        · exact formCandidate s o
theorem afterRemoval (s : State) (o : OutId) (r : Requester) : s.Regrants (s.afterRemoval o r) o := by
  unfold State.afterRemoval
  split
  · exact grantBest s o
  · exact formCandidate s o

theorem entry? (h : s.Regrants t o) (q : OutId) (r : Requester) : t.entry? q r = s.entry? q r := by
  unfold State.entry? State.requests
  rw [h.table]

end State.Regrants

theorem State.Best.of_table (h : s.Best o r) (table : t.arbiter.table = s.arbiter.table) : t.Best o r := by
  unfold State.Best State.entry? State.requests at h ⊢
  rw [table]
  exact h

theorem State.grantBest_some {b : Requester × Entry} (best : bestOf (s.requests o).entries = some b) :
    s.grantBest o = s.grantTo o b.1 := by
  unfold State.grantBest
  rw [best]

theorem State.grantBest_none (none : ∀ q, s.entry? o q = none) : s.grantBest o = s.grantDefault o := by
  unfold State.grantBest
  rw [Requests.bestOf_none_iff.mpr none]

theorem State.exists_best {e : Entry} (entry : s.entry? o r = some e) :
    ∃ b, bestOf (s.requests o).entries = some b := by
  cases best : bestOf (s.requests o).entries with
  | some b => exact ⟨b, rfl⟩
  | none =>
    have empty : s.entry? o r = none := Requests.bestOf_none_iff.mp best r
    rw [entry] at empty
    cases empty

/-- An entry above all others is the best. -/
theorem State.grantBest_of_top {e : Entry} (entry : s.entry? o r = some e)
    (top : ∀ q e', q ≠ r → s.entry? o q = some e' → e'.priority < e.priority) : s.grantBest o = s.grantTo o r := by
  obtain ⟨b, best⟩ := State.exists_best entry
  obtain ⟨at', e', found, ranks⟩ := State.best_of_bestOf best
  have same : b.1 = r := by
    by_contra other
    have below := top b.1 e' other found
    have := ranks r e entry
    omega
  rw [State.grantBest_some best, same]

/-! ### A removal (R164) -/

/-- The arbiter with requester `r`'s entry for output `o` taken out. -/
def State.removed (s : State) (o : OutId) (r : Requester) : Arbiter :=
  { s.arbiter with table := s.arbiter.table.set o ((s.requests o).set r none) }

theorem State.removed_entry (s : State) (o : OutId) (r q : Requester) :
    (s.setArbiter (s.removed o r)).entry? o q = if q = r then none else s.entry? o q :=
  s.setEntry_none_get o r q

theorem State.remove_absent (absent : s.entry? o r = none) : s.remove o r = s := by
  unfold State.remove
  rw [absent]

theorem State.remove_present {e : Entry} (present : s.entry? o r = some e) :
    s.remove o r = (s.setArbiter (s.removed o r)).afterRemoval o r := by
  unfold State.remove
  rw [present]
  rfl

theorem State.remove_left (copies : s.CopiesOk) (late : ∀ q e, s.entry? o q = some e → e.order ≤ s.arbiter.receipts)
    {e : Entry} (present : s.entry? o r = some e) : s.EntryLeft (s.remove o r) o r := by
  rw [State.remove_present present]
  have table := State.Regrants.afterRemoval (s.setArbiter (s.removed o r)) o r
  refine ⟨fun q => (table.entry? o q).trans (s.removed_entry o r q), fun notHolder => ?_, fun holder => ?_⟩
  · have kept : (s.setArbiter (s.removed o r)).afterRemoval o r = (s.setArbiter (s.removed o r)).formCandidate o :=
      if_neg notHolder
    rw [kept]
    exact ⟨State.setOutGrant_outGrant _ o _, rfl⟩
  · have regranted : (s.setArbiter (s.removed o r)).afterRemoval o r = (s.setArbiter (s.removed o r)).grantBest o :=
      if_pos holder
    refine ⟨fun none => ?_, fun ⟨q, e', left⟩ => ?_⟩
    · rw [regranted, State.grantBest_none (fun q => (table.entry? o q).symm.trans (none q))]
      exact State.grantDefault_defaulted (a := s.removed o r) rfl copies o
    · obtain ⟨b, best⟩ := State.exists_best ((table.entry? o q).symm.trans left)
      obtain ⟨entry, ranks⟩ := State.best_of_bestOf best
      refine ⟨b.1, ranks.of_table table.table, ?_⟩
      rw [regranted, State.grantBest_some best]
      refine State.grantTo_granted (a := s.removed o r) rfl copies (le_refl _) (fun q e' found => ?_) entry
      have before := (s.removed_entry o r q).symm.trans found
      split at before
      · cases before
      · exact late q e' before

/-! ### A receipt (R159–R161, R163) -/

/-- The arbiter with entry `e` of requester `r` for output `o` received. -/
def State.received (s : State) (o : OutId) (r : Requester) (e : Entry) : Arbiter :=
  { s.arbiter with table := s.arbiter.table.set o ((s.requests o).set r (some e)), receipts := s.arbiter.receipts + 1 }

theorem State.received_entry (s : State) (o : OutId) (r q : Requester) (e : Entry) :
    (s.setArbiter (s.received o r e)).entry? o q = if q = r then some e else s.entry? o q := by
  simp [State.received, State.entry?, State.requests]

theorem State.receive_eq (s : State) (o : OutId) (r : Requester) (v : View) (p hold : Nat) : s.receive o r v p hold =
    (s.setArbiter (s.received o r ⟨v, p, hold, s.timebase, s.arbiter.receipts + 1⟩)).afterReceipt o r
      ⟨v, p, hold, s.timebase, s.arbiter.receipts + 1⟩ := rfl

section
variable {e : Entry}

theorem State.afterReceipt_vacant (vacant : (s.outGrant o).holder = none) : s.afterReceipt o r e = s.grantTo o r := by
  unfold State.afterReceipt
  rw [vacant]

theorem State.afterReceipt_own (own : (s.outGrant o).holder = some r) : s.afterReceipt o r e =
    if (s.requests o).othersPriority r ≤ e.priority then s.grantTo o r else s.grantBest o := by
  unfold State.afterReceipt
  rw [own]
  exact if_pos rfl

theorem State.afterReceipt_other {h : Requester} (held : (s.outGrant o).holder = some h) (other : h ≠ r) {he : Entry}
    (entry : s.entry? o h = some he) : s.afterReceipt o r e =
      if he.priority < e.priority then s.grantBest o
      else if e.priority = he.priority ∧ (s.outGrant o).dwellRunning = false then s.grantTo o r
      else s.formCandidate o := by
  unfold State.afterReceipt
  rw [held, ← State.holderPriority_eq held entry]
  exact if_neg other

end

/-- The highest priority among the others is that of one of them, or 0. -/
theorem Requests.othersPriority_le_iff {t : Requests} {n : Nat} :
    t.othersPriority r ≤ n ↔ ∀ q e, q ≠ r → t.get q = some e → e.priority ≤ n := by
  refine ⟨fun top q e other entry => le_trans (Requests.othersPriority_le entry other) top, fun bound => ?_⟩
  unfold Requests.othersPriority
  split
  · exact Nat.zero_le n
  next b best =>
    obtain ⟨member, other⟩ := List.mem_filter.mp (bestOf_spec best).1
    exact bound b.1 b.2 (by simpa using other) ((t.mem_entries _ _).mp member)

/-- An entry of the holder's priority, received after all others, is the candidate. -/
theorem Requests.candidateFor_latest {t : Requests} {g : OutGrant} {h : Requester} {he e : Entry}
    (holder : g.holder = some h) (held : t.get h = some he) (entry : t.get r = some e) (other : r ≠ h)
    (equal : e.priority = he.priority) (behind : g.grantOrder < e.order)
    (latest : ∀ q e', q ≠ r → t.get q = some e' → e'.order < e.order) : t.candidateFor g = some r := by
  unfold Requests.candidateFor
  simp only [holder, held]
  have member : (r, e) ∈ t.entries.filter (fun x =>
      decide (x.1 ≠ h) && x.2.priority = he.priority && decide (g.grantOrder < x.2.order)) :=
    List.mem_filter.mpr ⟨(t.mem_entries r e).mpr entry, by simp [other, equal, behind]⟩
  cases best : bestOf (t.entries.filter (fun x =>
      decide (x.1 ≠ h) && x.2.priority = he.priority && decide (g.grantOrder < x.2.order))) with
  | none =>
    rw [bestOf_none best] at member
    cases member
  | some b =>
    have ranks : e.priority < b.2.priority ∨ (e.priority = b.2.priority ∧ e.order ≤ b.2.order) :=
      bestOf_latest best (r, e) member
    obtain ⟨found, kept⟩ := List.mem_filter.mp (bestOf_spec best).1
    have same : b.1 = r := by
      by_contra different
      have earlier := latest b.1 b.2 different ((t.mem_entries _ _).mp found)
      simp only [Bool.and_eq_true, decide_eq_true_eq] at kept
      omega
    rw [Option.map_some, same]

section
variable {e : Entry} (copies : s.CopiesOk) (late : ∀ q e, s.entry? o q = some e → e.order ≤ s.arbiter.receipts)
  (order : e.order = s.arbiter.receipts + 1)

theorem State.received_own (s : State) (o : OutId) (r : Requester) (e : Entry) :
    (s.setArbiter (s.received o r e)).entry? o r = some e := (s.received_entry o r r e).trans (if_pos rfl)

theorem State.received_others {q : Requester} (other : q ≠ r) :
    (s.setArbiter (s.received o r e)).entry? o q = s.entry? o q := (s.received_entry o r q e).trans (if_neg other)

include copies late order

/-- A grant of an output that has just received an entry. -/
theorem State.received_granted {h : Requester} {he : Entry}
    (entry : (s.setArbiter (s.received o r e)).entry? o h = some he) :
    s.GrantedTo ((s.setArbiter (s.received o r e)).grantTo o h) o h := by
  refine State.grantTo_granted rfl copies (Nat.le_succ _) (fun q e' found => ?_) entry
  have before := (s.received_entry o r q e).symm.trans found
  split at before
  · cases before
    exact le_of_eq order
  · exact le_trans (late q e' before) (Nat.le_succ _)

/-- An entry received while another requester holds the output, none of the output's entries above the holder's. -/
theorem State.received_over {h : Requester} {he : Entry} (held : (s.outGrant o).holder = some h) (other : h ≠ r)
    (entry : s.entry? o h = some he) (top : ∀ q e', s.entry? o q = some e' → e'.priority ≤ he.priority)
    (granted : (s.outGrant o).grantOrder ≤ s.arbiter.receipts) (t : State)
    (after : t = (s.setArbiter (s.received o r e)).afterReceipt o r e) :
    (he.priority < e.priority → s.GrantedTo t o r) ∧
    (e.priority = he.priority → (s.outGrant o).dwellRunning = false → s.GrantedTo t o r) ∧
    (e.priority = he.priority → (s.outGrant o).dwellRunning = true →
      s.GrantKept t o ∧ (t.outGrant o).candidate = some r) ∧
    (e.priority < he.priority → s.GrantKept t o) := by
  have own := s.received_own o r e
  have grants := State.received_granted copies late order own
  rw [State.afterReceipt_other (s := s.setArbiter (s.received o r e)) held other
    ((State.received_others other).trans entry)] at after
  refine ⟨fun above => ?_, fun equal elapsed => ?_, fun equal running => ?_, fun below => ?_⟩
  · rw [after, if_pos above, State.grantBest_of_top own (fun q e' different found =>
      lt_of_le_of_lt (top q e' ((State.received_others different).symm.trans found)) above)]
    exact grants
  · rw [after, if_neg (by omega), if_pos ⟨equal, elapsed⟩]
    exact grants
  · rw [after, if_neg (by omega), if_neg (fun ⟨_, elapsed⟩ => absurd (running.symm.trans elapsed) (by decide))]
    have formed := State.setOutGrant_outGrant (s.setArbiter (s.received o r e)) o { s.outGrant o with
      candidate := ((s.setArbiter (s.received o r e)).requests o).candidateFor (s.outGrant o) }
    refine ⟨⟨formed, rfl⟩, (congrArg OutGrant.candidate formed).trans ?_⟩
    refine Requests.candidateFor_latest held ((State.received_others other).trans entry) own (Ne.symm other) equal
      (by omega) (fun q e' different found => ?_)
    have := late q e' ((State.received_others different).symm.trans found)
    omega
  · rw [after, if_neg (by omega), if_neg (fun ⟨equal, _⟩ => by omega)]
    exact ⟨State.setOutGrant_outGrant _ o _, rfl⟩

/-- The holder's own update. -/
theorem State.received_update (holder : (s.outGrant o).holder = some r) (t : State)
    (after : t = (s.setArbiter (s.received o r e)).afterReceipt o r e) :
    ((∀ q e', q ≠ r → s.entry? o q = some e' → e'.priority ≤ e.priority) → s.GrantedTo t o r) ∧
    ((∃ q e', q ≠ r ∧ s.entry? o q = some e' ∧ e.priority < e'.priority) →
      ∃ h, h ≠ r ∧ t.Best o h ∧ s.GrantedTo t o h) := by
  have own := s.received_own o r e
  have table : t.arbiter.table = _ := after ▸ (State.Regrants.afterReceipt _ o r e).table
  rw [State.afterReceipt_own (s := s.setArbiter (s.received o r e)) holder] at after
  refine ⟨fun highest => ?_, fun ⟨q, e', different, found, above⟩ => ?_⟩
  · rw [after, if_pos (Requests.othersPriority_le_iff.mpr (fun q e' different found =>
      highest q e' different ((State.received_others different).symm.trans found)))]
    exact State.received_granted copies late order own
  · have passed : ¬((s.setArbiter (s.received o r e)).requests o).othersPriority r ≤ e.priority := fun top =>
      absurd (Requests.othersPriority_le_iff.mp top q e' different ((State.received_others different).trans found))
        (by omega)
    obtain ⟨b, best⟩ := State.exists_best own
    obtain ⟨entry, ranks⟩ := State.best_of_bestOf best
    have notOwn : b.1 ≠ r := by
      intro same
      obtain ⟨eb, foundBest, ranked⟩ := id ranks
      rw [same, own] at foundBest
      cases foundBest
      have := ranked q e' ((State.received_others different).trans found)
      omega
    refine ⟨b.1, notOwn, ranks.of_table table, ?_⟩
    rw [after, if_neg passed, State.grantBest_some best]
    exact State.received_granted copies late order entry

end

theorem State.receive_made (holders : HolderOk (s.requests o) (s.outGrant o)) (copies : s.CopiesOk)
    (late : ∀ q e, s.entry? o q = some e → e.order ≤ s.arbiter.receipts)
    (granted : (s.outGrant o).grantOrder ≤ s.arbiter.receipts) (r : Requester) (v : View) (p hold : Nat) :
    s.EntryMade (s.receive o r v p hold) o r ⟨v, p, hold, s.timebase, s.arbiter.receipts + 1⟩ := by
  rw [State.receive_eq]
  refine ⟨fun q => ((State.Regrants.afterReceipt _ o r _).entry? o q).trans (s.received_entry o r q _), fun vacant => ?_,
    fun h he held other entry => State.received_over copies late rfl held other entry ?_ granted _ rfl,
    fun holder => State.received_update copies late rfl holder _ rfl⟩
  · rw [State.afterReceipt_vacant (s := s.setArbiter (s.received o r _)) vacant]
    exact State.received_granted copies late rfl (s.received_own o r _)
  · unfold HolderOk at holders
    rw [held] at holders
    obtain ⟨he', entry', top, -⟩ := holders
    have same : he' = he := Option.some.inj (entry'.symm.trans entry)
    exact fun q e' found => same ▸ top q e' found

end Sys2Proof.Machine

end

section
/-! What a change of a channel sets off (R39, R46, R169): the auger entry made and removed, output by output. -/

namespace Sys2Proof.Machine

variable {s t u : State} {o : OutId} {r : Requester} {count : Nat}

/-! ### Nothing happens to an output -/

/-- Nothing that a grant of output `o` depends on, or answers for, happens between `s` and `t`. -/
structure State.Aside (s t : State) (o : OutId) : Prop where
  requests : t.requests o = s.requests o
  outGrant : t.outGrant o = s.outGrant o
  output : t.output o = s.output o
  receipts : t.arbiter.receipts = s.arbiter.receipts
  timebase : t.timebase = s.timebase
  params : t.params = s.params
  mi : s.mi.Asked t.mi
  clear : s.stillUnit.Clear o → t.stillUnit.Clear o

namespace State.Aside

theorem refl (s : State) (o : OutId) : s.Aside s o := ⟨rfl, rfl, rfl, rfl, rfl, rfl, .refl _, id⟩

theorem alone (h : s.Aside t o) : s.OutputAlone t o := ⟨h.requests, h.outGrant, h.output⟩

theorem entry? (h : s.Aside t o) (q : Requester) : t.entry? o q = s.entry? o q := congrArg (·.get q) h.requests

end State.Aside

/-! ### An entry that left, seen from earlier and from later -/

theorem State.OutputAlone.trans (h : s.OutputAlone t o) (g : t.OutputAlone u o) : s.OutputAlone u o := by
  obtain ⟨requests, outGrant, output⟩ := h
  obtain ⟨requests', outGrant', output'⟩ := g
  exact ⟨requests'.trans requests, outGrant'.trans outGrant, output'.trans output⟩

theorem State.Best.after (h : t.Best o r) (later : t.Aside u o) : u.Best o r := by
  unfold State.Best at h ⊢
  simp only [later.entry?]
  exact h

theorem State.GrantKept.after (h : s.GrantKept t o) (later : t.Aside u o) : s.GrantKept u o := by
  unfold State.GrantKept at h ⊢
  rw [later.outGrant, later.requests, later.output]
  exact h

theorem State.GrantKept.before (h : u.GrantKept t o) (earlier : s.Aside u o) : s.GrantKept t o := by
  unfold State.GrantKept at h ⊢
  rw [← earlier.outGrant, ← earlier.output]
  exact h

theorem State.Defaulted.after (h : s.Defaulted t o) (later : t.Aside u o) : s.Defaulted u o := by
  obtain ⟨outGrant, output, busy, asked⟩ := h
  exact ⟨later.outGrant.trans outGrant, later.output.trans output,
    StillUnit.busy_eq_false.mpr (later.clear (StillUnit.busy_eq_false.mp busy)), asked.after later.mi⟩

theorem State.Defaulted.before (h : u.Defaulted t o) (earlier : s.Aside u o) : s.Defaulted t o := by
  obtain ⟨outGrant, output, busy, asked⟩ := h
  rw [earlier.outGrant] at outGrant
  rw [earlier.output] at output
  exact ⟨outGrant, output, busy, asked.before earlier.mi⟩

theorem State.GrantedCounting.after (h : s.GrantedCounting t o r count) (later : t.Aside u o) :
    s.GrantedCounting u o r count := by
  obtain ⟨outGrant, ⟨low, high⟩, ⟨e, entry, output⟩, busy, asked⟩ := h
  refine ⟨?_, ?_, ⟨e, (later.entry? r).trans entry, later.output.trans output⟩,
    StillUnit.busy_eq_false.mpr (later.clear (StillUnit.busy_eq_false.mp busy)), asked.after later.mi⟩
  · rw [later.outGrant]
    exact outGrant
  · rw [later.outGrant, later.receipts]
    exact ⟨low, high⟩

theorem State.GrantedCounting.before (h : u.GrantedCounting t o r count) (earlier : s.Aside u o) :
    s.GrantedCounting t o r count := by
  obtain ⟨outGrant, order, view, busy, asked⟩ := h
  rw [earlier.timebase, earlier.params] at outGrant
  rw [earlier.receipts] at order
  rw [earlier.output] at view
  exact ⟨outGrant, order, view, busy, asked.before earlier.mi⟩

theorem State.EntryLeft.after (h : s.EntryLeft t o r) (later : t.Aside u o) : s.EntryLeft u o r := by
  obtain ⟨entries, kept, left⟩ := h
  refine ⟨fun q => (later.entry? q).trans (entries q), fun other => (kept other).after later, fun holder => ?_⟩
  obtain ⟨none, some⟩ := left holder
  refine ⟨fun empty => (none fun q => (later.entry? q).symm.trans (empty q)).after later, fun ⟨q, e, entry⟩ => ?_⟩
  obtain ⟨h, best, granted⟩ := some ⟨q, e, (later.entry? q).symm.trans entry⟩
  exact ⟨h, best.after later, granted.after later⟩

theorem State.EntryLeft.before (h : u.EntryLeft t o r) (earlier : s.Aside u o) : s.EntryLeft t o r := by
  obtain ⟨entries, kept, left⟩ := h
  rw [earlier.outGrant] at kept left
  refine ⟨fun q => (entries q).trans (by rw [earlier.entry?]), fun other => (kept other).before earlier, fun holder => ?_⟩
  obtain ⟨none, some⟩ := left holder
  refine ⟨fun empty => (none empty).before earlier, fun entry => ?_⟩
  obtain ⟨h, best, granted⟩ := some entry
  exact ⟨h, best, granted.before earlier⟩

/-! ### The auger entry (R169) -/

/-- Arbitration of one output leaves the other aside. -/
theorem State.Regrants.aside {a : Arbiter} {q : OutId} (h : (s.setArbiter a).Regrants t o) (copies : s.CopiesOk)
    (other : q ≠ o) (table : a.table.get q = s.arbiter.table.get q) (outs : a.outs = s.arbiter.outs)
    (receipts : a.receipts = s.arbiter.receipts) : s.Aside t q where
  requests := (congrArg (·.get q) h.table).trans table
  outGrant := (h.outGrant q other).trans (State.outGrant_of_outs outs q)
  output := h.output q other
  receipts := h.receipts.trans receipts
  timebase := h.view.timebase
  params := h.view.params
  mi := h.view.mi
  clear := (h.copies copies).2 q

/-- A removal from one output leaves the other aside, and the copies in order. -/
theorem State.remove_aside (copies : s.CopiesOk) {q : OutId} (other : q ≠ o) :
    s.Aside (s.remove o r) q ∧ (s.remove o r).CopiesOk := by
  cases present : s.entry? o r with
  | none =>
    rw [State.remove_absent present]
    exact ⟨.refl s q, copies⟩
  | some e =>
    rw [State.remove_present present]
    have regrants := State.Regrants.afterRemoval (s.setArbiter (s.removed o r)) o r
    have table : (s.removed o r).table.get q = s.arbiter.table.get q := (PerOut.get_set _ _ _ _).trans (if_neg other)
    exact ⟨regrants.aside copies other table rfl rfl, (regrants.copies copies).1⟩

/-- A removal of an entry that may be absent. -/
theorem State.remove_at (copies : s.CopiesOk) (late : ∀ q e, s.entry? o q = some e → e.order ≤ s.arbiter.receipts) :
    (s.entry? o r = none → s.OutputAlone (s.remove o r) o) ∧
    ((s.entry? o r).isSome = true → s.EntryLeft (s.remove o r) o r) := by
  refine ⟨fun absent => ?_, fun present => ?_⟩
  · rw [State.remove_absent absent]
    exact (State.Aside.refl s o).alone
  · obtain ⟨e, entry⟩ := Option.isSome_iff_exists.mp present
    exact State.remove_left copies late entry

theorem State.augerRemove_at (copies : s.CopiesOk) (orders : s.OrdersOk) (o : OutId) :
    (s.entry? o .auger = none → s.OutputAlone s.augerRemove o) ∧
    ((s.entry? o .auger).isSome = true → s.EntryLeft s.augerRemove o .auger) := by
  have ⟨asideB, copies'⟩ := State.remove_aside (o := .a) (r := .auger) (q := .b) copies (by decide)
  have ⟨asideA, _⟩ := State.remove_aside (o := .b) (r := .auger) (q := .a) copies' (by decide)
  cases o with
  | a =>
    obtain ⟨absent, present⟩ := State.remove_at (r := .auger) copies (orders .a).1
    exact ⟨fun none => (absent none).trans asideA.alone, fun some => (present some).after asideA⟩
  | b =>
    have late (q : Requester) (e : Entry) (entry : (s.remove .a .auger).entry? .b q = some e) :
        e.order ≤ (s.remove .a .auger).arbiter.receipts := by
      rw [asideB.receipts]
      exact (orders .b).1 q e ((asideB.entry? q).symm.trans entry)
    obtain ⟨absent, present⟩ := State.remove_at (r := .auger) copies' late
    rw [asideB.entry?] at absent present
    exact ⟨fun none => asideB.alone.trans (absent none), fun some => (present some).before asideB⟩

theorem State.receive_other (s : State) (o : OutId) (r : Requester) (v : View) (p hold : Nat) :
    s.OutputAlone (s.receive o r v p hold) o.other := by
  have other : o.other ≠ o := by cases o <;> decide
  have regrants := State.Regrants.afterReceipt
    (s.setArbiter (s.received o r ⟨v, p, hold, s.timebase, s.arbiter.receipts + 1⟩)) o r
    ⟨v, p, hold, s.timebase, s.arbiter.receipts + 1⟩
  refine ⟨(congrArg (·.get o.other) regrants.table).trans ?_, regrants.outGrant o.other other, regrants.output o.other other⟩
  exact (PerOut.get_set _ _ _ _).trans (if_neg other)

end Sys2Proof.Machine

open Sys2Proof Sys2Proof.Machine

/-- Settles O40: the report first, and on channel 2 the receipt or the removal of the auger entry. -/
theorem channelChangesAreReported : Obligations.ChannelChangesAreReported := by
  unfold Obligations.ChannelChangesAreReported
  intro s e ch old w u p t
  refine ⟨fun state auger => State.changeChannel_quiet state auger, fun changed quiet => ?_,
    fun holders orders copies second out wasIn priority => ?_, fun holders orders copies second isIn wasOut => ?_⟩
  · have reported := State.changeChannel_reported changed
    by_cases second : e = .ec2
    · rw [if_pos second] at reported
      exact reported.trans (State.augerChanged_quiet (s := u) (quiet.resolve_left (not_not.mpr second)))
    · exact reported.trans (if_neg second)
  · have changed : ch.auger ≠ old.auger := fun same => wasIn (same.symm.trans out)
    have created : t = u.augerCreate := by
      refine (State.changeChannel_reported (.inr changed)).trans ((if_pos second).trans ?_)
      exact (if_pos ⟨out, wasIn⟩).trans (if_pos priority)
    rw [created]
    exact ⟨(State.ViewFrame.refl u).augerCreate,
      State.receive_made (s := u) (holders p.augerOutput) copies (orders p.augerOutput).1 (orders p.augerOutput).2 _ _ _ _,
      State.receive_other u _ _ _ _ _⟩
  · have changed : ch.auger ≠ old.auger := fun same => isIn (same.trans wasOut)
    have removed : t = u.augerRemove := by
      refine (State.changeChannel_reported (.inr changed)).trans ((if_pos second).trans ?_)
      exact (if_neg (fun h => isIn h.1)).trans (if_pos ⟨wasOut, isIn⟩)
    rw [removed]
    exact ⟨(State.ViewFrame.refl u).augerRemove, State.augerRemove_at (s := u) copies orders⟩

end

section
/-! What a command can do to the links, the frame store, the engine and the pins: a handful of moves. Of each block the
invariants of the frame store and of the pins read a part alone, and most operations leave that part as it is. -/

namespace Sys2Proof.Machine

/-! ### States alike in what the invariants read -/

/-- From `s` to `t`, link states and frames in progress, the capture-order lists, and states, pins and presence of a record of
every slot are the same. -/
structure State.SameSlots (s t : State) : Prop where
  linkState : ∀ c : CamId, (t.link c).state = (s.link c).state
  progress : ∀ c : CamId, (t.link c).progress = (s.link c).progress
  order : ∀ c : CamId, (t.ring c).order = (s.ring c).order
  slotState : ∀ (c : CamId) (k : SlotId), (t.slot c k).state = (s.slot c k).state
  pins : ∀ (c : CamId) (k : SlotId), (t.slot c k).pins = (s.slot c k).pins
  recorded : ∀ (c : CamId) (k : SlotId), (t.slot c k).record.isSome = (s.slot c k).record.isSome

/-- From `s` to `t`, the engine, the windows, the shown views and the running copy are the same besides. -/
structure State.SameStore (s t : State) : Prop extends State.SameSlots s t where
  engine : t.engine = s.engine
  win1 : ∀ o : OutId, (t.output o).win1 = (s.output o).win1
  win2 : ∀ o : OutId, (t.output o).win2 = (s.output o).win2
  shown : ∀ o : OutId, (t.output o).shown = (s.output o).shown
  running : t.stillUnit.running = s.stillUnit.running

namespace State.SameSlots

variable {s t : State}

theorem refl (s : State) : s.SameSlots s :=
  ⟨fun _ => rfl, fun _ => rfl, fun _ => rfl, fun _ _ => rfl, fun _ _ => rfl, fun _ _ => rfl⟩

theorem trans {u : State} (h : s.SameSlots t) (g : t.SameSlots u) : s.SameSlots u where
  linkState c := (g.linkState c).trans (h.linkState c)
  progress c := (g.progress c).trans (h.progress c)
  order c := (g.order c).trans (h.order c)
  slotState c k := (g.slotState c k).trans (h.slotState c k)
  pins c k := (g.pins c k).trans (h.pins c k)
  recorded c k := (g.recorded c k).trans (h.recorded c k)

theorem of_eq (links : t.links = s.links) (rings : t.rings = s.rings) : s.SameSlots t := by
  constructor <;> intros <;> simp only [State.link, State.ring, State.slot, links, rings]

theorem setLink (s : State) (c : CamId) {l : Link} (state : l.state = (s.link c).state)
    (progress : l.progress = (s.link c).progress) : s.SameSlots (s.setLink c l) := by
  refine { refl s with linkState := fun d => ?_, progress := fun d => ?_ } <;>
  · rw [State.setLink_link]
    split
    · subst d
      assumption
    · rfl

theorem setSlot (s : State) (c : CamId) (k : SlotId) {v : Slot} (state : v.state = (s.slot c k).state)
    (pins : v.pins = (s.slot c k).pins) (recorded : v.record.isSome = (s.slot c k).record.isSome) :
    s.SameSlots (s.setSlot c k v) := by
  refine { refl s with order := fun d => ?_, slotState := fun d j => ?_, pins := fun d j => ?_, recorded := fun d j => ?_ }
  · rw [State.setSlot_ring]
  all_goals
    rw [State.setSlot_slot]
    split
    next same =>
      obtain ⟨rfl, rfl⟩ := same
      assumption
    next => rfl

theorem setRing (s : State) (c : CamId) {r : Ring} (slots : r.slots = (s.ring c).slots)
    (order : r.order = (s.ring c).order) : s.SameSlots (s.setRing c r) := by
  have ring (d : CamId) : ((s.setRing c r).ring d).slots = (s.ring d).slots ∧
      ((s.setRing c r).ring d).order = (s.ring d).order := by
    rw [State.setRing_ring]
    split
    · subst d
      exact ⟨slots, order⟩
    · exact ⟨rfl, rfl⟩
  have slot (d : CamId) (j : SlotId) : (s.setRing c r).slot d j = s.slot d j := congrArg (·.get j) (ring d).1
  refine { refl s with order := fun d => (ring d).2, slotState := ?_, pins := ?_, recorded := ?_ } <;>
  · intro d j
    rw [slot]

end State.SameSlots

namespace State.SameStore

variable {s t : State}

theorem of_slots (h : s.SameSlots t) (engine : t.engine = s.engine) (outputs : t.outputs = s.outputs)
    (running : t.stillUnit.running = s.stillUnit.running) : s.SameStore t :=
  { h with
    engine := engine
    win1 := fun o => by rw [State.output, State.output, outputs]
    win2 := fun o => by rw [State.output, State.output, outputs]
    shown := fun o => by rw [State.output, State.output, outputs]
    running := running }

theorem refl (s : State) : s.SameStore s := of_slots (.refl s) rfl rfl rfl

theorem trans {u : State} (h : s.SameStore t) (g : t.SameStore u) : s.SameStore u :=
  { h.toSameSlots.trans g.toSameSlots with
    engine := g.engine.trans h.engine
    win1 := fun o => (g.win1 o).trans (h.win1 o)
    win2 := fun o => (g.win2 o).trans (h.win2 o)
    shown := fun o => (g.shown o).trans (h.shown o)
    running := g.running.trans h.running }

theorem setLink (s : State) (c : CamId) {l : Link} (state : l.state = (s.link c).state)
    (progress : l.progress = (s.link c).progress) : s.SameStore (s.setLink c l) :=
  of_slots (.setLink s c state progress) rfl rfl rfl

theorem setSlot (s : State) (c : CamId) (k : SlotId) {v : Slot} (state : v.state = (s.slot c k).state)
    (pins : v.pins = (s.slot c k).pins) (recorded : v.record.isSome = (s.slot c k).record.isSome) :
    s.SameStore (s.setSlot c k v) := of_slots (.setSlot s c k state pins recorded) rfl rfl rfl

theorem setRing (s : State) (c : CamId) {r : Ring} (slots : r.slots = (s.ring c).slots)
    (order : r.order = (s.ring c).order) : s.SameStore (s.setRing c r) := of_slots (.setRing s c slots order) rfl rfl rfl

theorem setOutput (s : State) (o : OutId) {v : Compositor} (win1 : v.win1 = (s.output o).win1)
    (win2 : v.win2 = (s.output o).win2) (shown : v.shown = (s.output o).shown) : s.SameStore (s.setOutput o v) := by
  refine { refl s with win1 := fun q => ?_, win2 := fun q => ?_, shown := fun q => ?_ } <;>
  · rw [State.setOutput_output]
    split
    · subst q
      assumption
    · rfl

/-! ### Lines that settle (R17, R18) -/

theorem conceal (s : State) (c : CamId) (k : SlotId) : s.SameStore (s.conceal c k) :=
  have settled : s.SameStore (s.setSlot c k ((s.slot c k).settle _ _)) := setSlot s c k rfl rfl rfl
  settled.trans (setLink _ c rfl rfl)

theorem concealMany (s : State) (c : CamId) (k : SlotId) (n : Nat) : s.SameStore (s.concealMany c k n) := by
  induction n generalizing s with
  | zero => exact refl s
  | succ n ih => exact (conceal s c k).trans (ih _)

theorem closeLine (s : State) (c : CamId) : s.SameStore (s.closeLine c) := setLink s c rfl rfl

theorem settleGood (s : State) (c : CamId) (k : SlotId) (row : List Word) : s.SameStore (s.settleGood c k row) :=
  have settled : s.SameStore (s.setSlot c k ((s.slot c k).settle _ _)) := setSlot s c k rfl rfl rfl
  settled.trans (setLink _ c rfl rfl)

theorem settleOpenBad (s : State) (c : CamId) (k : SlotId) : s.SameStore (s.settleOpenBad c k) := by
  unfold State.settleOpenBad
  split
  · exact refl s
  · exact (conceal s c k).trans (closeLine _ c)

end State.SameStore

/-! ### Moves -/

/-- Nothing is received, stored, registered, shown or copied, as after a start or a soft reset. -/
structure State.Cleared (s : State) : Prop where
  progress : ∀ c : CamId, (s.link c).progress = .none
  order : ∀ c : CamId, (s.ring c).order = []
  slots : ∀ (c : CamId) (k : SlotId), (s.slot c k).state = .free ∧ (s.slot c k).pins = 0 ∧ (s.slot c k).record = none
  engine : s.engine = ⟨none, []⟩
  windows : ∀ o : OutId, (s.output o).win1.slot = none ∧ (s.output o).win2.slot = none
  running : s.stillUnit.running = none

/-- `t` is reached from `s` by operations that leave the store as it is and by those that do not: a link in training moves on, a
frame goes unstored, link-down, a frame begins or ends, a job completes, a frame is shown, a copy starts or stops, and
all is cleared. -/
inductive State.Moves (s : State) : State → Prop
  | refl : s.Moves s
  | same {t u : State} (h : s.Moves t) (same : t.SameStore u) : s.Moves u
  | train {t : State} (h : s.Moves t) (c : CamId) (l : Link) (unlocked : (t.link c).state ≠ .locked)
      (progress : l.progress = .none ∨ l.progress = (t.link c).progress) : s.Moves (t.setLink c l)
  | unstored {t : State} (h : s.Moves t) (c : CamId) (l : Link) (before : ∀ k, (t.link c).progress ≠ .receiving k)
      (after : ∀ k, l.progress ≠ .receiving k) (locked : l.progress ≠ .none → l.state = .locked) : s.Moves (t.setLink c l)
  | drop {t : State} (h : s.Moves t) (c : CamId) (l : Link) (after : l.progress = .none) :
      s.Moves ((t.linkDown c).setLink c l)
  | fill {t : State} (h : s.Moves t) (c : CamId) (k : SlotId) (l : Link)
      (before : ∀ j, (t.link c).progress ≠ .receiving j) (slot : (t.ring c).allocate? = some k)
      (after : l.progress = .receiving k) (locked : l.state = .locked) : s.Moves ((t.fillSlot c k).setLink c l)
  | frameEnd {t : State} (h : s.Moves t) (c : CamId) (k : SlotId) (l : Link) (wellFormed : Bool) (concealed : Nat)
      (before : (t.link c).progress = .receiving k) (after : l.progress = .none) :
      s.Moves ((t.setLink c l).storeFrameEnd c wellFormed concealed)
  | complete {t : State} (h : s.Moves t) : s.Moves t.completeJob
  | showStill {t : State} (h : s.Moves t) (o : OutId) : s.Moves (t.showStill o)
  | showLive {t : State} (h : s.Moves t) (o : OutId) : s.Moves (t.showLive o)
  | startCopy {t : State} (h : s.Moves t) (r : CopyRecord) (idle : t.stillUnit.running = none) :
      s.Moves (t.startCopy r (t.output r.output).answer)
  | stopCopy {t : State} (h : s.Moves t) {r : CopyRecord} {src : Sources} (running : t.stillUnit.running = some (r, src)) :
      s.Moves (t.stopCopy src)
  | clear {t : State} (cleared : t.Cleared) : s.Moves t

/-! ### Links -/

theorem Link.updateDue_same (l : Link) (p : CamParams) :
    (l.updateDue p).state = l.state ∧ (l.updateDue p).progress = l.progress := by
  unfold Link.updateDue
  split <;> exact ⟨rfl, rfl⟩

theorem Link.scheduleUpdate_same (l : Link) (p : CamParams) :
    (l.scheduleUpdate p).state = l.state ∧ (l.scheduleUpdate p).progress = l.progress := by
  unfold Link.scheduleUpdate
  split
  · exact Link.updateDue_same _ p
  · exact ⟨rfl, rfl⟩

theorem Link.applyPending_same (l : Link) (p : CamParams) :
    (l.applyPending p).state = l.state ∧ (l.applyPending p).progress = l.progress := by
  unfold Link.applyPending
  split <;> exact ⟨rfl, rfl⟩

theorem State.storeFrameEnd_links (s : State) (c : CamId) (w : Bool) (n : Nat) : (s.storeFrameEnd c w n).links = s.links := by
  unfold State.storeFrameEnd
  split
  · rfl
  · split
    · exact State.wellFormedEnd_links _ _ _ _
    · rfl

/-- A frame that has ended, in whatever way, is no longer in progress (R19, R20). -/
theorem State.endFrame_progress (s : State) (c : CamId) (k : SlotId) (byStart : Bool) :
    ((s.endFrame c k byStart).link c).progress = .none := by
  have counted (t : State) (m : Bool) (ended : (t.link c).progress = .none) :
      ((t.countMalformed c m).link c).progress = .none := by
    unfold State.countMalformed
    dsimp only
    split
    · split
      · simpa using ended
      · simp [State.leaveLocked, Link.acquire]
    · simpa using ended
  have stored (t : State) (l : Link) (w : Bool) (n : Nat) (ended : l.progress = .none) :
      (((t.setLink c l).storeFrameEnd c w n).link c).progress = .none := by
    rw [State.link, State.storeFrameEnd_links]
    simpa using ended
  unfold State.endFrame
  refine counted _ _ ?_
  split
  · exact stored _ _ _ _ rfl
  · rw [State.applyPendingTap, State.setLink_link, if_pos rfl, (Link.applyPending_same _ _).2]
    exact stored _ _ _ _ rfl

end Sys2Proof.Machine
end

section
/-! Every command is made of moves, block by block. -/

namespace Sys2Proof.Machine

namespace State.Moves

variable {s t v : State}

/-! ### Updates -/

/-- Links, rings, engine, outputs and still unit alone matter. -/
theorem aside {u : State} (h : s.Moves t) (links : u.links = t.links) (rings : u.rings = t.rings)
    (engine : u.engine = t.engine) (outputs : u.outputs = t.outputs) (running : u.stillUnit.running = t.stillUnit.running) :
    s.Moves u := h.same (.of_slots (.of_eq links rings) engine outputs running)

theorem setScreen (h : s.Moves t) (c : CamId) (v : Screen) : s.Moves (t.setScreen c v) := h.aside rfl rfl rfl rfl rfl
theorem setContext (h : s.Moves t) (c : CamId) (v : Context) : s.Moves (t.setContext c v) := h.aside rfl rfl rfl rfl rfl
theorem setTable (h : s.Moves t) (c : CamId) (v : PhaseTable) : s.Moves (t.setTable c v) := h.aside rfl rfl rfl rfl rfl
theorem setChannel (h : s.Moves t) (e : ChanId) (v : Channel) : s.Moves (t.setChannel e v) := h.aside rfl rfl rfl rfl rfl
theorem setArbiter (h : s.Moves t) (v : Arbiter) : s.Moves (t.setArbiter v) := h.aside rfl rfl rfl rfl rfl
theorem setMi (h : s.Moves t) (v : Interface) : s.Moves (t.setMi v) := h.aside rfl rfl rfl rfl rfl
theorem setParams (h : s.Moves t) (v : Params) : s.Moves (t.setParams v) := h.aside rfl rfl rfl rfl rfl
theorem ask (h : s.Moves t) (m : Message) : s.Moves (t.ask m) := h.setMi _

/-- A link that neither changes its state nor begins or ends a frame. -/
theorem setLink (h : s.Moves t) (c : CamId) {l : Link}
    (same : l.state = (t.link c).state ∧ l.progress = (t.link c).progress := by exact ⟨rfl, rfl⟩) : s.Moves (t.setLink c l) :=
  h.same (.setLink t c same.1 same.2)

/-- A link in training that goes on with no frame in progress. -/
theorem retrain (h : s.Moves t) {c : CamId} (unlocked : (t.link c).state ≠ .locked) {l : Link}
    (ended : l.progress = .none := by rfl) : s.Moves (t.setLink c l) := h.train c l unlocked (.inl ended)

/-- A link in training that goes on and leaves the frame in progress as it is. -/
theorem advance (h : s.Moves t) {c : CamId} (unlocked : (t.link c).state ≠ .locked) {l : Link}
    (same : l.progress = (t.link c).progress := by rfl) : s.Moves (t.setLink c l) := h.train c l unlocked (.inr same)

/-- Link-down, with the link then in whatever state without a frame. -/
theorem linkDown (h : s.Moves t) (c : CamId) {l : Link} (ended : l.progress = .none := by rfl) :
    s.Moves ((t.linkDown c).setLink c l) := h.drop c l ended

/-- A ring with other counts. -/
theorem setCounts (h : s.Moves t) (c : CamId) {r : Ring} (slots : r.slots = (t.ring c).slots := by rfl)
    (order : r.order = (t.ring c).order := by rfl) : s.Moves (t.setRing c r) := h.same (.setRing t c slots order)

/-- A compositor whose windows and shown view stay. -/
theorem setOutput (h : s.Moves t) (o : OutId) {v : Compositor} (win1 : v.win1 = (t.output o).win1 := by rfl)
    (win2 : v.win2 = (t.output o).win2 := by rfl) (shown : v.shown = (t.output o).shown := by rfl) :
    s.Moves (t.setOutput o v) :=
  h.same (.setOutput t o win1 win2 shown)

/-- A still unit whose running copy stays. -/
theorem setStillUnit (h : s.Moves t) {v : StillUnit} (running : v.running = t.stillUnit.running := by rfl) :
    s.Moves (t.setStillUnit v) := h.aside rfl rfl rfl rfl running

theorem ite {u : State} (yes : s.Moves t) (no : s.Moves u) (p : Prop) [Decidable p] : s.Moves (if p then t else u) := by
  split
  · exact yes
  · exact no

/-- Moves repeated over a list. -/
theorem foldl {α : Type} {f : State → α → State} (each : ∀ (u : State) (a : α), s.Moves u → s.Moves (f u a)) (l : List α)
    (h : s.Moves t) : s.Moves (l.foldl f t) := by
  induction l generalizing t with
  | nil => exact h
  | cons a l ih => exact ih (each t a h)

/-! ### Tables -/

theorem clearTable (h : s.Moves t) (c : CamId) : s.Moves (t.clearTable c) := h.setTable _ _
theorem clearIfBound (h : s.Moves t) (e : ChanId) (c : CamId) : s.Moves (t.clearIfBound e c) := (h.clearTable c).ite h _
theorem clearBound (h : s.Moves t) (e : ChanId) : s.Moves (t.clearBound e) :=
  foldl (fun _ c g => g.clearIfBound e c) CamId.all h

/-! ### Links (R4–R15) -/

/-- A link that leaves or changes its training ends no frame. -/
theorem failAttempt (h : s.Moves t) {c : CamId} (unlocked : (t.link c).state ≠ .locked) : s.Moves (t.failAttempt c) :=
  (h.retrain unlocked).ite ((h.advance unlocked).ask _) _
theorem acquire (h : s.Moves t) {c : CamId} (unlocked : (t.link c).state ≠ .locked) :
    s.Moves (t.setLink c ((t.link c).acquire 0 t.timebase)) := h.retrain unlocked
theorem leaveLocked (h : s.Moves t) (c : CamId) : s.Moves (t.leaveLocked c) :=
  ((h.setLink c).ask _).linkDown c
theorem setOffered (h : s.Moves t) (c : CamId) (o : Tap) : s.Moves (t.setOffered c o) := h.setLink c
theorem forceTapUpdate (h : s.Moves t) (c : CamId) : s.Moves (t.forceTapUpdate c) :=
  (h.setLink c (Link.updateDue_same _ _)).ite h _
theorem applyPendingTap (h : s.Moves t) (c : CamId) : s.Moves (t.applyPendingTap c) :=
  h.setLink c (Link.applyPending_same _ _)
theorem linkReset (h : s.Moves t) (c : CamId) : s.Moves (t.linkReset c) := by
  unfold State.linkReset
  split
  next => exact h.leaveLocked c
  next state => exact h.acquire (by rw [state]; decide)
  next state => exact h.acquire (by rw [state]; decide)
  next state => exact h.acquire (by rw [state]; decide)
  next => exact h

/-- A link that leaves what it was in by link-down, where it was in LOCKED. -/
theorem closeLink (h : s.Moves t) (c : CamId) {l : Link} (ended : l.progress = .none) :
    s.Moves ((if (t.link c).state = .locked then t.linkDown c else t).setLink c l) := by
  split
  next => exact h.drop c l ended
  next unlocked => exact h.train c l unlocked (.inl ended)

/-! ### Frames and lines (R16–R20) -/

/-- A marker: what it does in LOCKED may rest on the link's state. -/
theorem marker (h : s.Moves t) (c : CamId) (n : Nat) {f : State → State}
    (hf : ∀ u : State, s.Moves u → (u.link c).state = .locked → s.Moves (f u)) : s.Moves (t.marker c n f) := by
  unfold State.marker
  split
  next locked => exact hf _ (h.setLink c) (by simpa using locked)
  next => exact h.setLink c
  all_goals exact h

theorem countMalformed (h : s.Moves t) (c : CamId) (m : Bool) : s.Moves (t.countMalformed c m) :=
  ((h.setLink c).ite (((h.setLink c).ask _).leaveLocked c) _).ite (h.setLink c) _

theorem endFrame (h : s.Moves t) (c : CamId) {k : SlotId} (receiving : (t.link c).progress = .receiving k) (j : SlotId)
    (byStart : Bool) : s.Moves (t.endFrame c j byStart) := by
  have settled := State.SameStore.settleOpenBad t c j
  have ended (l : Link) (w : Bool) (n : Nat) (after : l.progress = .none) :=
    (h.same settled).frameEnd c k l w n ((settled.progress c).trans receiving) after
  unfold State.endFrame
  exact ((ended _ _ _ rfl).ite ((ended _ _ _ rfl).applyPendingTap c) _).countMalformed c _

/-- A frame begins in the slot the store allocates (R16, R53). -/
theorem allocated (h : s.Moves t) {c : CamId} {k : SlotId} (locked : (t.link c).state = .locked)
    (idle : ∀ j, (t.link c).progress ≠ .receiving j) (slot : (t.ring c).allocate? = some k) :
    s.Moves ((t.fillSlot c k).setLink c ((t.link c).receive k)) := h.fill c k _ idle slot rfl locked

/-- A frame begins without a slot (R16, R55). -/
theorem overrun (h : s.Moves t) {c : CamId} (locked : (t.link c).state = .locked)
    (idle : ∀ j, (t.link c).progress ≠ .receiving j) :
    s.Moves ((t.setLink c { t.link c with progress := .discarding, openLine := none }).overrun c) :=
  ((h.unstored c { t.link c with progress := .discarding, openLine := none } idle nofun (fun _ => locked)).setCounts c).ask _

theorem beginFrame (h : s.Moves t) (c : CamId) (locked : (t.link c).state = .locked)
    (idle : ∀ k, (t.link c).progress ≠ .receiving k) (n : Byte) : s.Moves (t.beginFrame c n) := by
  have noted : s.Moves (t.setLink c { t.link c with lastFrameCounter := n }) := h.setLink c
  have counted := noted.setCounts c (r := ((t.setLink c { t.link c with lastFrameCounter := n }).ring c).counted)
  unfold State.beginFrame
  refine Moves.setLink ?_ c (Link.scheduleUpdate_same _ _)
  dsimp only
  split
  next k slot => exact counted.allocated (by simpa using locked) (by simpa using idle) slot
  next => exact counted.overrun (by simpa using locked) (by simpa using idle)

theorem takeFrameStart (h : s.Moves t) (c : CamId) (locked : (t.link c).state = .locked) (n : Byte) :
    s.Moves (t.takeFrameStart c n) := by
  unfold State.takeFrameStart
  split
  next idle => exact h.beginFrame c locked (by simp [idle]) n
  next idle => exact h.beginFrame c locked (by simp [idle]) n
  next k receiving =>
    have ended := h.endFrame c receiving k true
    dsimp only
    split
    next still => exact ended.beginFrame c still (by simp [State.endFrame_progress]) n
    next => exact ended

theorem takeFrameEnd (h : s.Moves t) (c : CamId) : s.Moves (t.takeFrameEnd c) := by
  unfold State.takeFrameEnd
  split
  next => exact h.applyPendingTap c
  next discarding => exact (h.unstored c _ (by simp [discarding]) (by simp) (by simp)).applyPendingTap c
  next k receiving => exact h.endFrame c receiving k false

theorem whileReceiving (h : s.Moves t) (c : CamId) {f : SlotId → State → State}
    (hf : ∀ (k : SlotId) (u : State), s.Moves u → s.Moves (f k u)) : s.Moves (t.whileReceiving c f) := by
  unfold State.whileReceiving
  split
  · exact hf _ _ h
  all_goals exact h

theorem openAt (h : s.Moves t) (c : CamId) (n : Nat) (b : Bool) : s.Moves (t.openAt c n b) := h.setLink c

theorem takeLineStart (h : s.Moves t) (c : CamId) (k : SlotId) (n : Nat) : s.Moves (t.takeLineStart c k n) :=
  have closed := h.same (.settleOpenBad t c k)
  closed.ite ((closed.openAt c _ _).ite (((closed.same (.concealMany _ c k _)).openAt c _ _).ite (closed.openAt c _ _) _) _) _

theorem takeLineEnd (h : s.Moves t) (c : CamId) (k : SlotId) (w : Word) : s.Moves (t.takeLineEnd c k w) := by
  unfold State.takeLineEnd
  split
  · exact h
  · exact ((h.same (.settleGood t c k _)).same (.closeLine _ c)).ite ((h.same (.conceal t c k)).same (.closeLine _ c)) _

/-! ### Outputs (R129, R134, R143) -/

theorem outputFrame (h : s.Moves t) (o : OutId) : s.Moves (t.outputFrame o) := by
  have shown : s.Moves (t.setUpFrame o) := by
    unfold State.setUpFrame
    exact ((h.setOutput o).showStill o).ite ((h.setOutput o).showLive o) _
  exact (shown.ask _).ite shown _

theorem handGrant (h : s.Moves t) (o : OutId) (g : Option View) : s.Moves (t.handGrant o g) := h.setOutput o
theorem setFrozen (h : s.Moves t) (o : OutId) (b : Bool) : s.Moves (t.setFrozen o b) := h.setOutput o

/-! ### Still unit (R176–R181) -/

theorem startFrom (h : s.Moves t) (idle : t.stillUnit.running = none) (l : List CopyRecord) : s.Moves (t.startFrom l) := by
  induction l generalizing t with
  | nil => exact h.setStillUnit
  | cons r l ih =>
    have waiting : s.Moves (t.setStillUnit { t.stillUnit with waiting := l }) := h.setStillUnit
    exact (waiting.startCopy r idle).ite (ih (h.ask _) idle) _

theorem startPending (h : s.Moves t) : s.Moves t.startPending := by
  unfold State.startPending
  split
  next idle => exact h.startFrom idle _
  next => exact h

theorem completeCopy (h : s.Moves t) : s.Moves t.completeCopy := by
  unfold State.completeCopy
  split
  next => exact h
  next r src running =>
    have valid (v : Still) : s.Moves (t.setStill r.output v) := h.setStillUnit
    exact ((((valid _).stopCopy (r := r) running).setFrozen r.output true).ask _).startPending

theorem endCopy (h : s.Moves t) (o : OutId) (res : Result) (f : Still → Still) : s.Moves (t.endCopy o res f) := by
  unfold State.endCopy
  split
  next =>
    exact ((h.setStillUnit).setStillUnit).ask _
  next r src _ running =>
    have copying : t.stillUnit.running = some (r, src) := by
      unfold StillUnit.runningOf at running
      split at running
      next => cases running
      next q src' copies =>
        split at running
        next => rw [copies, running]
        next => cases running
    exact (((h.stopCopy copying).setStillUnit).ask _).startPending
  next => exact h

theorem abortCopy (h : s.Moves t) (o : OutId) : s.Moves (t.abortCopy o) := h.endCopy o _ _
theorem cancelCopy (h : s.Moves t) (o : OutId) : s.Moves (t.cancelCopy o) := h.endCopy o _ _

theorem freeze (h : s.Moves t) (node : Byte) (k : ReqSlot) (o : OutId) : s.Moves (t.freeze node k o) :=
  have waiting (l : List CopyRecord) : s.Moves (t.setStillUnit { t.stillUnit with waiting := l }) := h.setStillUnit
  (h.ask _).ite ((waiting _).startPending.ite (h.ask _) _) _
theorem unfreeze (h : s.Moves t) (node : Byte) (o : OutId) : s.Moves (t.unfreeze node o) :=
  ((h.cancelCopy _).ask _).ite (((h.setFrozen _ _).ask _).ite (h.ask _) _) _

/-! ### Arbiter -/

theorem grantChange (h : s.Moves t) (o : OutId) : s.Moves (t.grantChange o) :=
  (((h.handGrant o _).abortCopy o).ask _).setArbiter _
theorem grantTo (h : s.Moves t) (o : OutId) (r : Requester) : s.Moves (t.grantTo o r) :=
  ((h.setArbiter _).setArbiter _).grantChange o
theorem grantDefault (h : s.Moves t) (o : OutId) : s.Moves (t.grantDefault o) := (h.setArbiter _).grantChange o
theorem grantBest (h : s.Moves t) (o : OutId) : s.Moves (t.grantBest o) := by
  unfold State.grantBest
  split
  · exact h.grantTo _ _
  · exact h.grantDefault _
theorem afterReceipt (h : s.Moves t) (o : OutId) (r : Requester) (e : Entry) : s.Moves (t.afterReceipt o r e) := by
  unfold State.afterReceipt
  split
  · exact h.grantTo _ _
  · exact ((h.grantTo _ _).ite (h.grantBest _) _).ite
      ((h.grantBest _).ite ((h.grantTo _ _).ite (h.setArbiter _) _) _) _
theorem receive (h : s.Moves t) (o : OutId) (r : Requester) (v : View) (p hold : Nat) : s.Moves (t.receive o r v p hold) :=
  ((h.setArbiter _).setArbiter _).afterReceipt _ _ _
theorem afterExpiry (h : s.Moves t) (o : OutId) (r : Requester) : s.Moves (t.afterExpiry o r) := by
  unfold State.afterExpiry
  refine ite ?_ (h.setArbiter _) _
  split
  · exact (h.grantDefault _).grantTo _ _
  · exact h.grantDefault _
theorem remove (h : s.Moves t) (o : OutId) (r : Requester) : s.Moves (t.remove o r) := by
  have left := h.setArbiter { t.arbiter with table := t.arbiter.table.set o ((t.requests o).set r none) }
  unfold State.remove
  split
  · exact h
  · exact (left.grantBest o).ite (left.setArbiter _) _
theorem dwellElapsed (h : s.Moves t) (o : OutId) : s.Moves (t.dwellElapsed o) := by
  unfold State.dwellElapsed
  split
  · exact h.grantTo _ _
  · exact h.setArbiter _
theorem dwellWritten (h : s.Moves t) (o : OutId) : s.Moves (t.dwellWritten o) :=
  (h.dwellElapsed _).ite ((h.setArbiter _).ite h _) _
theorem expire (h : s.Moves t) (k : ReqSlot) : s.Moves (t.expire k) :=
  have dropped (u : State) (o : OutId) (g : s.Moves u) : s.Moves (u.dropPersistent k o) := (g.setArbiter _).ite g _
  have noted (a : Arbiter) (m : Message) := ((dropped _ .b (dropped t .a h)).setArbiter a).ask m
  have onA (a : Arbiter) (m : Message) := ((noted a m).afterExpiry .a (.master k)).ite (noted a m) _
  ((onA _ _).afterExpiry _ _).ite (onA _ _) _
theorem keepaliveWritten (h : s.Moves t) (k : ReqSlot) : s.Moves (t.keepaliveWritten k) := by
  unfold State.keepaliveWritten
  split
  · exact h
  · exact (h.expire _).ite h _
theorem lowerEntry (h : s.Moves t) (k : ReqSlot) (p : Nat) (o : OutId) : s.Moves (t.lowerEntry k p o) := by
  have lowered (e : Entry) :=
    h.setArbiter { t.arbiter with table := t.arbiter.table.set o ((t.requests o).set (.master k) (some e)) }
  unfold State.lowerEntry
  split
  · exact h
  · exact (((((lowered _).ask _).setArbiter _).ite ((lowered _).grantBest _) _).ite ((lowered _).setArbiter _) _).ite h _
theorem augerCreate (h : s.Moves t) : s.Moves t.augerCreate := h.receive _ _ _ _ _
theorem augerRemove (h : s.Moves t) : s.Moves t.augerRemove := (h.remove _ _).remove _ _

/-! ### Encoder channels -/

theorem changeChannel (h : s.Moves t) (e : ChanId) (ch : Channel) : s.Moves (t.changeChannel e ch) :=
  have reported := ((h.setChannel e ch).ask (.encoderReport e)).ite (h.setChannel e ch) _
  have signalled := (reported.augerCreate.ite reported _).ite (reported.augerRemove.ite reported _) _
  signalled.ite reported _
theorem stopChannel (h : s.Moves t) (e : ChanId) : s.Moves (t.stopChannel e) := (h.ask _).changeChannel _ _
theorem reboundPosition (h : s.Moves t) (e : ChanId) : s.Moves (t.reboundPosition e) := by
  unfold State.reboundPosition
  dsimp only
  split
  · exact h.setChannel _ _
  · exact h
theorem maxPeriodWritten (h : s.Moves t) (e : ChanId) : s.Moves (t.maxPeriodWritten e) := by
  unfold State.maxPeriodWritten
  split
  · exact h
  · exact (h.stopChannel _).ite h _

/-! ### Stored writes -/

theorem linkEnableChanged (h : s.Moves t) (c : CamId) (on : Bool) : s.Moves (t.linkEnableChanged c on) := by
  refine ite ?_ (h.closeLink c rfl) _
  split
  next down => exact h.acquire (by rw [down]; decide)
  next => exact h
theorem camWritten (h : s.Moves t) (c : CamId) (p : CamParam) (old new : Int) : s.Moves (t.camWritten c p old new) := by
  cases p
  case linkEnable => exact h.ite (h.linkEnableChanged c _) _
  case tapOverride => exact h.forceTapUpdate c
  case tapGate => exact (h.applyPendingTap c).ite h _
  case holdLimit => exact h.setScreen _ _
  case phaseSource => exact h.ite (h.clearTable c) _
  all_goals exact h
theorem chanWritten (h : s.Moves t) (e : ChanId) (p : ChanParam) (old new : Int) : s.Moves (t.chanWritten e p old new) := by
  have rebound := (h.reboundPosition e).ite ((h.reboundPosition e).clearBound e) (old = new)
  cases p
  case enable => exact h.ite ((h.changeChannel _ _).ite (h.changeChannel _ _) _) _
  case mode => exact rebound
  case cpr => exact rebound
  case maxPeriod => exact h.maxPeriodWritten e
  case outThreshold => exact h.changeChannel _ _
  case inThreshold => exact h.changeChannel _ _
  all_goals exact h
theorem outWritten (h : s.Moves t) (o : OutId) (p : OutParam) (old new : Int) : s.Moves (t.outWritten o p old new) := by
  cases p
  case rasterRate => exact (h.setOutput o).ite h _
  all_goals exact h
theorem written (h : s.Moves t) (id : ParamId) (old new : Int) : s.Moves (t.written id old new) := by
  cases id with
  | cam c p => exact h.camWritten c p old new
  | chan e p => exact h.chanWritten e p old new
  | out o p => exact h.outWritten o p old new
  | dwell => exact (h.dwellWritten _).dwellWritten _
  | keepalive => exact foldl (fun _ k g => g.keepaliveWritten k) _ h
  | augerOutput => exact h.ite (h.augerRemove.augerCreate.ite h _) _
  | augerCamera => exact h.ite (h.augerCreate.ite h _) _
  | augerPriority => exact h.ite (h.augerRemove.ite (h.augerCreate.ite h _) _) _
  | nodeCode k => exact h.ite (((h.remove _ _).remove _ _).setArbiter _) _
  | maxPriority k => exact ((h.lowerEntry _ _ _).lowerEntry _ _ _).ite h _
theorem writeParam (h : s.Moves t) (node : Byte) (number : Word) (id : ParamId) (v : Int) :
    s.Moves (t.writeParam node number id v) := by
  have stored : s.Moves (t.storeParam id v) := (h.setParams _).written _ _ _
  unfold State.writeParam
  split
  · exact stored.ask _
  · exact stored.ask _
  · exact h.ask _

/-! ### Commands and the soft reset -/

theorem whenBit (h : s.Moves t) (bits : Word) (i : Nat) {f : State → State}
    (hf : ∀ u : State, s.Moves u → s.Moves (f u)) : s.Moves (Machine.whenBit bits i f t) := (hf _ h).ite h _
theorem clearCameraCounts (h : s.Moves t) (c : CamId) : s.Moves (t.clearCameraCounts c) :=
  have linked : s.Moves (t.setLink c (t.link c).clearCounts) := h.setLink c
  have ringed : s.Moves ((t.setLink c (t.link c).clearCounts).setRing c (t.ring c).clearCounts) :=
    linked.setCounts c
  (ringed.setContext c _).setTable c _
theorem cameraCommands (h : s.Moves t) (c : CamId) (bits : Word) : s.Moves (Machine.cameraCommands c bits t) :=
  ((((h.whenBit bits 0 (fun _ g => g.linkReset c)).whenBit bits 1 (fun _ g => g.setContext _ _)).whenBit bits 2
    (fun _ g => g.clearTable c)).whenBit bits 3 (fun _ g => g.forceTapUpdate c)).whenBit bits 4
    (fun _ g => g.clearCameraCounts c)
theorem encoderCommands (h : s.Moves t) (e : ChanId) (bits : Word) : s.Moves (Machine.encoderCommands e bits t) :=
  (((h.whenBit bits 0 (fun _ g => g.changeChannel e _)).whenBit bits 1 (fun _ g => g.setChannel _ _)).whenBit bits 2
    (fun _ g => g.setChannel _ _)).whenBit bits 3 (fun _ g => g.setChannel _ _)

/-- A soft reset leaves every slot FREE, and nothing registered, shown or copied (R67, R149, R185). -/
theorem othersReset_cleared (ended : ∀ c : CamId, (t.link c).progress = .none) : t.othersReset.Cleared where
  progress c := ended c
  order c := by simp [State.othersReset, State.ring, Ring.softReset]
  slots c k := by simp [State.othersReset, State.slot, State.ring, Ring.softReset, Slot.softReset, Slot.freed]
  engine := rfl
  windows o := by simp [State.othersReset_output, Compositor.softReset, Window.unpinned]
  running := rfl

/-- Before that it leaves every link in ACQUIRE or DOWN, with no frame in progress (R12). -/
theorem linksReset_progress (t : State) (c : CamId) : (t.linksReset.link c).progress = .none := by
  rw [State.linksReset_link]
  unfold Link.softReset
  split <;> rfl

theorem softReset (s t : State) (node : Byte) (underWay : Bool) : s.Moves (t.softReset node underWay) :=
  have cleared := clear (s := s) (othersReset_cleared (linksReset_progress _))
  cleared.augerCreate.ite cleared _

/-- The part as it starts (R23, R68, R107, R150, R185). -/
theorem start_cleared (l : BootLevels) : (State.start l).Cleared where
  progress c := by simp [State.start, State.link, Link.initial]
  order c := by simp [State.start, State.ring, Ring.initial]
  slots c k := by simp [State.start, State.slot, State.ring, Ring.initial, Slot.initial]
  engine := rfl
  windows o := by cases o <;> exact ⟨rfl, rfl⟩
  running := rfl

/-! ### Messages -/

theorem takeHead (h : s.Moves t) : s.Moves (Machine.takeHead t) := by
  rw [takeHead_rest]
  exact h.setMi _
theorem onReceipt (h : s.Moves t) {f : State → State} (hf : ∀ u : State, s.Moves u → s.Moves (f u)) :
    s.Moves (Machine.onReceipt f t) := (hf _ (h.setMi _)).ite h _
theorem fromNode (h : s.Moves t) (node : Byte) {unknown : State → State} {known : ReqSlot → State → State}
    (hu : ∀ u : State, s.Moves u → s.Moves (unknown u))
    (hk : ∀ (k : ReqSlot) (u : State), s.Moves u → s.Moves (known k u)) : s.Moves (Machine.fromNode node unknown known t) := by
  unfold Machine.fromNode
  split
  · exact hu _ h
  · exact hk _ _ (h.setArbiter _)
theorem paramMessage (h : s.Moves t) (node : Byte) (id : ParamId) (value : BitVec 32) :
    s.Moves (Machine.paramMessage node id value t) :=
  h.fromNode node (fun _ g => g.ask _) (fun _ _ g => g.writeParam _ _ _ _)
theorem paramReadMessage (h : s.Moves t) (node : Byte) (number : Word) :
    s.Moves (Machine.paramReadMessage node number t) := by
  refine h.fromNode node (fun _ g => g.ask _) (fun _ u g => ?_)
  split
  · exact g.ask _
  · exact g.ask _
  · exact g.ask _
theorem paramWriteMessage (h : s.Moves t) (node : Byte) (number : Word) (value : BitVec 32) :
    s.Moves (Machine.paramWriteMessage node number value t) := by
  refine h.fromNode node (fun _ g => g.ask _) (fun _ u g => ?_)
  split
  · exact g.writeParam _ _ _ _
  · exact g.ask _
  · exact g.ask _
theorem commandMessage (h : s.Moves t) (node target : Byte) (bits : Word) (underWay : Bool) :
    s.Moves (Machine.commandMessage node target bits underWay t) := by
  refine h.fromNode node (fun _ g => g.ask _) (fun _ u g => ?_)
  split
  · exact g.ask _
  · rename_i target _
    cases target with
    | camera c => exact (g.cameraCommands c bits).ask _
    | encoder e => exact (g.encoderCommands e bits).ask _
    | device => exact (softReset s _ node underWay).ite (g.ask _) _
theorem freezeMessage (h : s.Moves t) (node output action : Byte) :
    s.Moves (Machine.freezeMessage node output action t) := by
  unfold Machine.freezeMessage
  dsimp only
  refine h.fromNode node (fun _ g => g.ask _) (fun k u g => ?_)
  split
  · exact g.ask _
  · exact (g.ask _).ite ((g.ask _).ite ((g.freeze _ _ _).ite (g.unfreeze _ _) _) _) _
theorem viewRequestMessage (h : s.Moves t) (node output layout camA camB priority : Byte) (hold : Word) :
    s.Moves (Machine.viewRequestMessage node output layout camA camB priority hold t) := by
  refine h.fromNode node (fun _ g => g.ask _) (fun k u g => ?_)
  split
  · exact g.ask _
  · split
    · exact g.ask _
    · exact (g.receive _ _ _ _ _).ask _
theorem viewReleaseMessage (h : s.Moves t) (node output : Byte) : s.Moves (Machine.viewReleaseMessage node output t) := by
  refine h.fromNode node (fun _ g => g.ask _) (fun k u g => ?_)
  split
  · exact g.ask _
  · split
    · exact g.ask _
    · exact (g.remove _ _).ask _
theorem keepaliveMessage (h : s.Moves t) (node : Byte) : s.Moves (Machine.keepaliveMessage node t) :=
  h.fromNode node (fun _ g => g) (fun _ _ g => g)

/-- A frame, whatever message it carries. -/
theorem takeFrame (h : s.Moves t) (f : CanFrame) : s.Moves (Machine.takeFrame f t) := by
  unfold Machine.takeFrame
  split
  · exact h
  · rename_i kind _
    cases kind with
    | viewRequest => exact h.viewRequestMessage _ _ _ _ _ _ _
    | viewRelease => exact h.viewReleaseMessage _ _
    | freeze => exact h.freezeMessage _ _ _
    | paramWrite => exact h.paramWriteMessage _ _ _
    | paramRead => exact h.paramReadMessage _ _
    | command => exact h.commandMessage _ _ _ _
    | keepalive => exact h.keepaliveMessage _

/-! ### Commands -/

theorem event (h : s.Moves t) {f : State → State} (work : ∀ u : State, s.Moves u → s.Moves (f u))
    (e : Machine.event f t = .next v) : s.Moves v := by
  cases hh : t.held
  · rw [event_running hh] at e
    cases e
    exact (work t h).takeHead
  · rw [event_held hh] at e
    cases e
    exact h

theorem message (h : s.Moves t) {f : State → State} (work : ∀ u : State, s.Moves u → s.Moves (f u))
    (e : Machine.event (Machine.onReceipt f) t = .next v) : s.Moves v := h.event (fun _ g => g.onReceipt work) e

theorem paramRow (h : s.Moves t) {node : Byte} {id : ParamId} {value : BitVec 32}
    (e : Machine.event (Machine.onReceipt (Machine.paramMessage node id value)) t = .next v) : s.Moves v :=
  h.message (fun _ g => g.paramMessage node id value) e

theorem bitRow (h : s.Moves t) {node : Byte} {target : Target} {bits : Word} {i : Nat}
    (e : Machine.event (Machine.onReceipt (Machine.bitCommand node target bits i false)) t = .next v) : s.Moves v :=
  h.message (fun _ g => g.commandMessage node target.byte _ false) e

theorem referenceLock (h : s.Moves t) {c : CamId} {offered : Tap} (e : execReferenceLock c offered t = .next v) : s.Moves v := by
  refine h.event (fun u g => ?_) e
  split
  next acquiring => exact g.train c _ (by rw [acquiring]; decide) (.inr rfl)
  next => exact g

theorem acquireTimeout (h : s.Moves t) {c : CamId} (e : execAcquireTimeout c t = .next v) : s.Moves v := by
  refine h.event (fun u g => ?_) e
  split
  next late => exact g.failAttempt (by rw [late.1]; decide)
  next => exact g

theorem gateEnd (h : s.Moves t) {c : CamId} (e : execGateEnd c t = .next v) : s.Moves v := by
  refine h.event (fun u g => ?_) e
  split
  next late =>
    have unlocked : (u.link c).state ≠ .locked := by rw [late.1]; decide
    exact (g.train c _ unlocked (.inl rfl)).ite (g.failAttempt unlocked) _
  next => exact g

theorem referenceUnlock (h : s.Moves t) {c : CamId} (e : execReferenceUnlock c t = .next v) : s.Moves v := by
  refine h.event (fun u g => ?_) e
  split
  next verifying => exact g.failAttempt (by rw [verifying]; decide)
  next => exact g.leaveLocked c
  all_goals exact g

theorem backoffEnd (h : s.Moves t) {c : CamId} (e : execBackoffEnd c t = .next v) : s.Moves v := by
  refine h.event (fun u g => ?_) e
  split
  next late => exact g.acquire (by rw [late.1]; decide)
  next => exact g

theorem wordClock (h : s.Moves t) {c : CamId} (e : execWordClock c t = .next v) : s.Moves v := by
  refine h.event (fun u g => ?_) e
  split
  · exact g.setLink c
  · exact g.setLink c
  all_goals exact g

theorem pixelWord (h : s.Moves t) {c : CamId} {w : Word} (e : execPixelWord c w t = .next v) : s.Moves v := by
  refine h.event (fun u g => ?_) e
  split
  · exact g.setLink c
  · exact g.setLink c
  all_goals exact g

theorem stopWatchExpiry (h : s.Moves t) {c : ChanId} (e : execStopWatchExpiry c t = .next v) : s.Moves v := by
  refine h.event (fun u g => ?_) e
  split
  · exact g
  · exact (g.stopChannel _).ite g _

theorem timedExpiry (h : s.Moves t) {r : Requester} {o : OutId} (e : execTimedExpiry r o t = .next v) : s.Moves v := by
  refine h.event (fun u g => ?_) e
  split
  · exact g
  · exact (g.remove _ _).ite g _

theorem keepaliveExpiry (h : s.Moves t) {k : ReqSlot} (e : execKeepaliveExpiry k t = .next v) : s.Moves v := by
  refine h.event (fun u g => ?_) e
  split
  · exact g
  · exact (g.expire _).ite g _

theorem encoderTimer (h : s.Moves t) (e : execEncoderTimer t = .next v) : s.Moves v := by
  refine h.event (fun u g => ite ?_ g _) e
  dsimp only
  split
  · exact g.setMi _
  · exact ((g.setMi _).setMi _).ask _

theorem softResetRow (h : s.Moves t) {node : Byte} {bits : Word} {underWay : Bool}
    (e : execSoftReset node bits underWay t = .next v) :
    s.Moves v :=
  h.event (fun _ g => (g.commandMessage _ _ _ _).ite (g.onReceipt (fun _ g => g.commandMessage _ _ _ _)) _) e

theorem powerUp (s t : State) (l : BootLevels) : s.Moves (t.powerUp l) := (clear (start_cleared l)).aside rfl rfl rfl rfl rfl

theorem tick (s : State) : s.Moves (Machine.tick s) := by
  cases hh : s.held
  · rw [tick_of_running hh]
    exact State.Moves.refl.aside rfl rfl rfl rfl rfl
  · rw [tick_of_held hh]
    exact refl

/-- Every command is made of moves. -/
theorem exec (h : s.Moves t) (i : Instr) (e : Machine.exec i t = .next v) : s.Moves v := by
  cases i with
  | powerOn l => cases e; exact powerUp s t l
  | resetLine l => cases e; exact powerUp s t l
  | resetLineActive => cases e; exact (powerUp s t t.pinLevels).aside rfl rfl rfl rfl rfl
  | setupLineChange level => cases e; exact h.aside rfl rfl rfl rfl rfl
  | referenceLock c _ => exact h.referenceLock e
  | acquireTimeout c => exact h.acquireTimeout e
  | gateEnd c => exact h.gateEnd e
  | referenceUnlock c => exact h.referenceUnlock e
  | backoffEnd c => exact h.backoffEnd e
  | signalLoss c => exact h.event (fun u g => (g.leaveLocked c).ite g _) e
  | frameStart c n _ =>
    exact h.event (fun u g => g.marker c 2 (fun _ g locked => (g.setOffered c _).takeFrameStart c
      (by simpa [State.setOffered] using locked) n)) e
  | lineStart c _ =>
    exact h.event (fun u g => g.marker c 2 (fun _ g _ => g.whileReceiving c (fun k _ g => g.takeLineStart c k _))) e
  | pixelWord c w => exact h.pixelWord e
  | lineEnd c w =>
    exact h.event (fun u g => g.marker c 2 (fun _ g _ => g.whileReceiving c (fun k _ g => g.takeLineEnd c k w))) e
  | frameEnd c _ => exact h.event (fun u g => g.marker c 1 (fun _ g _ => (g.setOffered c _).takeFrameEnd c)) e
  | wordClock c => exact h.wordClock e
  | jobCompletion => exact h.event (fun _ g => g.complete) e
  | quadratureEdge c _ _ => exact h.event (fun u g => (g.setChannel c _).ite (g.changeChannel c _) _) e
  | indexEdge c _ =>
    exact h.event (fun u g => (g.setChannel c _).ite (((g.ask _).ite g _).changeChannel c _) _) e
  | stopWatchExpiry c => exact h.stopWatchExpiry e
  | outputFrameStart o => exact h.event (fun u g => (g.outputFrame o).ite g _) e
  | viewRequest => exact h.message (fun u g => g.viewRequestMessage _ _ _ _ _ _ _) e
  | viewRelease => exact h.message (fun u g => g.viewReleaseMessage _ _) e
  | timedExpiry r o => exact h.timedExpiry e
  | keepaliveExpiry k => exact h.keepaliveExpiry e
  | dwellExpiry o => exact h.event (fun u g => (g.dwellElapsed o).ite g _) e
  | freeze => exact h.message (fun u g => g.freezeMessage _ _ _) e
  | unfreeze => exact h.message (fun u g => g.freezeMessage _ _ _) e
  | copyCompletion => exact h.event (fun _ g => g.completeCopy) e
  | paramWrite => exact h.message (fun u g => g.paramWriteMessage _ _ _) e
  | paramRead => exact h.message (fun u g => g.paramReadMessage _ _) e
  | keepalive => exact h.message (fun u g => g.keepaliveMessage _) e
  | canFrameIgnored f => exact h.message (fun u g => g.takeFrame f) e
  | linkReset => exact h.bitRow e
  | refRefresh => exact h.bitRow e
  | tableClear => exact h.bitRow e
  | forceTapUpdate => exact h.message (fun u g => (g.setOffered _ _).commandMessage _ _ _ _) e
  | clearCounts => exact h.bitRow e
  | clearPosition => exact h.bitRow e
  | armIndex => exact h.bitRow e
  | releaseCapture => exact h.bitRow e
  | clearCountsEncoder => exact h.bitRow e
  | softReset => exact h.softResetRow e
  | command => exact h.message (fun u g => g.commandMessage _ _ _ _) e
  | linkEnable => exact h.paramRow e
  | tapOverride => exact h.message (fun u g => (g.setOffered _ _).paramMessage _ _ _) e
  | tapGate => exact h.message (fun u g => (g.setOffered _ _).paramMessage _ _ _) e
  | holdLimit => exact h.paramRow e
  | phaseSource => exact h.paramRow e
  | enable => exact h.paramRow e
  | mode => exact h.paramRow e
  | cpr => exact h.paramRow e
  | maxPeriod => exact h.paramRow e
  | outThreshold => exact h.paramRow e
  | inThreshold => exact h.paramRow e
  | dwell => exact h.paramRow e
  | keepaliveParamWrite => exact h.paramRow e
  | augerPriority => exact h.paramRow e
  | augerCamera => exact h.paramRow e
  | augerOutput => exact h.paramRow e
  | slotNodeCode => exact h.paramRow e
  | slotMaxPriority => exact h.paramRow e
  | viewStatusTimer => exact h.event (fun u g => (((g.setMi _).ask _).ask _).ite g _) e
  | cameraTimer => exact h.event (fun u g => ((g.setMi _).ask _).ite g _) e
  | encoderTimer => exact h.encoderTimer e
  | frameSent => exact h.event (fun u g => (g.setMi _).ite g _) e
  | transmitError => exact h.event (fun u g => (g.setMi _).ite g _) e
  | receiveError => exact h.event (fun u g => (g.setMi _).ite g _) e
  | busJoin => exact h.event (fun u g => (g.setMi _).ite g _) e
  | busOffRecovery => exact h.event (fun u g => ((g.setMi _).ite (g.setMi _) _).ite g _) e

/-- So is every step. -/
theorem step (e : Machine.step s = .next t) : s.Moves t := by
  cases front : s.pending with
  | nil =>
    rw [step_of_pending_nil front] at e
    cases e
    exact tick s
  | cons c rest =>
    rw [step_of_pending_cons front] at e
    have taken : s.Moves { s with pending := rest } := refl.aside rfl rfl rfl rfl rfl
    exact taken.exec c e

end State.Moves

end Sys2Proof.Machine
end

section
/-! The frame store stays consistent: each ring fits its link and the registration jobs, through every move (R48, R49, R60,
R85–R87). -/

namespace Sys2Proof.Machine

/-! ### A ring, its link and its jobs (R48, R49, R60) -/

/-- The ring `r` of a camera with link `l`, whose jobs are those of the slots of which `jobs` holds: the clauses of `State.RingOk`,
apart from where the jobs come from. -/
structure Ring.Fits (r : Ring) (l : Link) (jobs : SlotId → Prop) : Prop where
  nodup : r.order.Nodup
  listed : ∀ k : SlotId, k ∈ r.order ↔ (r.slots.get k).state ≠ .free
  recorded : ∀ k : SlotId, (r.slots.get k).record.isSome = true ↔ (r.slots.get k).state ≠ .free
  filling : ∀ k : SlotId, (r.slots.get k).state = .filling ↔ l.progress = .receiving k
  locked : l.progress ≠ .none → l.state = .locked
  scored : ∀ k : SlotId, (r.slots.get k).state = .scored ↔ jobs k

namespace Ring.Fits

variable {r : Ring} {l : Link} {jobs : SlotId → Prop} {k : SlotId}

/-- Of a ring, the list and the slots' states and presence of a record alone matter. -/
theorem of_alike (h : r.Fits l jobs) {r' : Ring} (order : r'.order = r.order)
    (state : ∀ k : SlotId, (r'.slots.get k).state = (r.slots.get k).state)
    (record : ∀ k : SlotId, (r'.slots.get k).record.isSome = (r.slots.get k).record.isSome) : r'.Fits l jobs := by
  obtain ⟨nodup, listed, recorded, filling, locked, scored⟩ := h
  constructor <;> simpa only [order, state, record]

/-- The FILLING slot that the ring finds is the one the link is receiving into. -/
theorem filling?_eq (h : r.Fits l jobs) (receiving : l.progress = .receiving k) : r.filling? = some k := by
  cases found : r.filling? with
  | none =>
    have none := List.find?_eq_none.mp found k (by cases k <;> decide)
    exact absurd ((h.filling k).mpr receiving) (by simpa using none)
  | some j =>
    have filling : (r.slots.get j).state = .filling := by simpa using List.find?_some found
    have same := ((h.filling j).mp filling).symm.trans receiving
    rw [Progress.receiving.inj same]

theorem filling?_none (h : r.Fits l jobs) (idle : ∀ k, l.progress ≠ .receiving k) : r.filling? = none := by
  rw [Ring.filling?, List.find?_eq_none]
  intro k _
  simpa using fun filling => idle k ((h.filling k).mp filling)

/-- With another link, in the same frame. -/
theorem withLink (h : r.Fits l jobs) {l' : Link} (progress : ∀ k, l'.progress = .receiving k ↔ l.progress = .receiving k)
    (locked : l'.progress ≠ .none → l'.state = .locked) : r.Fits l' jobs :=
  { h with filling := fun k => (h.filling k).trans (progress k).symm, locked := locked }

/-- A slot in use changes to another use; the frame in progress and the jobs change at that slot alone. -/
theorem put (h : r.Fits l jobs) {v : Slot} {l' : Link} {jobs' : SlotId → Prop} (used : (r.slots.get k).state ≠ .free)
    (inUse : v.state ≠ .free) (record : v.record.isSome = true) (filling : v.state = .filling ↔ l'.progress = .receiving k)
    (scored : v.state = .scored ↔ jobs' k) (locked : l'.progress ≠ .none → l'.state = .locked)
    (others : ∀ j, j ≠ k → (l'.progress = .receiving j ↔ l.progress = .receiving j) ∧ (jobs' j ↔ jobs j)) :
    Ring.Fits { r with slots := r.slots.set k v } l' jobs' where
  nodup := h.nodup
  listed j := by
    rw [PerSlot.get_set]
    split
    next same =>
      subst same
      exact iff_of_true ((h.listed j).mpr used) inUse
    next => exact h.listed j
  recorded j := by
    rw [PerSlot.get_set]
    split
    next => exact iff_of_true record inUse
    next => exact h.recorded j
  filling j := by
    rw [PerSlot.get_set]
    split
    next same => rw [same, filling]
    next other => rw [(others j other).1, h.filling]
  locked := locked
  scored j := by
    rw [PerSlot.get_set]
    split
    next same => rw [same, scored]
    next other => rw [(others j other).2, h.scored]

/-- The slot being filled becomes FREE and leaves the list, and the frame is no longer in progress (R49). -/
theorem free (h : r.Fits l jobs) (receiving : l.progress = .receiving k) {l' : Link} (ended : l'.progress = .none) :
    (r.free k).Fits l' jobs where
  nodup := h.nodup.filter _
  listed j := by
    simp only [Ring.free, PerSlot.get_set, List.mem_filter, h.listed]
    split
    next same => simp [same, Slot.freed]
    next other => simp [other]
  recorded j := by
    simp only [Ring.free, PerSlot.get_set]
    split
    next => simp [Slot.freed]
    next => exact h.recorded j
  filling j := by
    simp only [Ring.free, PerSlot.get_set, ended]
    split
    next => simp [Slot.freed]
    next other => simpa [h.filling, receiving] using Ne.symm other
  locked x := absurd ended x
  scored j := by
    simp only [Ring.free, PerSlot.get_set]
    split
    next same =>
      have filling := (h.filling k).mpr receiving
      rw [same, ← h.scored, filling]
      simp [Slot.freed]
    next => exact h.scored j

/-- A slot that is FREE or READY is filled: it moves to the end of the list, and the link receives into it (R49, R53). -/
theorem fill (h : r.Fits l jobs) (idle : ∀ j, l.progress ≠ .receiving j)
    (slot : (r.slots.get k).state = .free ∨ (r.slots.get k).state = .ready) (rec : Record) {l' : Link}
    (receiving : l'.progress = .receiving k) (locked : l'.state = .locked) : (r.fill k rec).Fits l' jobs where
  nodup := by
    refine (h.nodup.filter _).append (List.nodup_singleton k) ?_
    simp
  listed j := by
    simp only [Ring.fill, PerSlot.get_set, List.mem_append, List.mem_filter, List.mem_singleton, h.listed]
    split
    next same => simp [same]
    next other => simp [other]
  recorded j := by
    simp only [Ring.fill, PerSlot.get_set]
    split
    next => simp
    next => exact h.recorded j
  filling j := by
    simp only [Ring.fill, PerSlot.get_set, receiving]
    split
    next same => simp [same]
    next other =>
      rw [h.filling]
      exact iff_of_false (idle j) (by simpa using Ne.symm other)
  locked _ := locked
  scored j := by
    simp only [Ring.fill, PerSlot.get_set]
    split
    next same =>
      rw [same, ← h.scored]
      rcases slot with state | state <;> simp [state]
    next => exact h.scored j

end Ring.Fits

/-- The slot a frame start gets is FREE, or READY without a pin (R53, R54). -/
theorem Ring.allocate?_spec {r : Ring} {k : SlotId} (h : r.allocate? = some k) :
    (r.slots.get k).state = .free ∨ ((r.slots.get k).state = .ready ∧ (r.slots.get k).pins = 0) := by
  unfold Ring.allocate? at h
  split at h
  next j found =>
    cases h
    exact .inl (by simpa using List.find?_some found)
  next =>
    have found := List.find?_some h
    simp only [Bool.and_eq_true, decide_eq_true_eq] at found
    exact .inr found.1

/-! ### All rings, against a list of jobs -/

/-- Every ring fits its link and the jobs of its camera among `jobs`. -/
def State.Serves (s : State) (jobs : List Job) : Prop :=
  ∀ c : CamId, (s.ring c).Fits (s.link c) (fun k => ⟨c, k⟩ ∈ jobs)

theorem State.storeOk_iff {s : State} : s.StoreOk ↔ s.Serves s.engine.jobs ∧ s.engine.jobs.Nodup ∧
    (s.engine.queue.map (·.cam)).Nodup ∧ (s.engine.running = none → s.engine.queue = []) := by
  refine and_congr_left fun _ => forall_congr' fun c => ?_
  exact ⟨fun ⟨nodup, listed, recorded, filling, locked, scored⟩ => ⟨nodup, listed, recorded, filling, locked, scored⟩,
    fun h => ⟨h.nodup, h.listed, h.recorded, h.filling, h.locked, h.scored⟩⟩

namespace State.Serves

variable {s t : State} {jobs : List Job} {c : CamId} {k : SlotId}

theorem of_same (h : s.Serves jobs) (same : s.SameSlots t) : t.Serves jobs := fun c =>
  ((h c).of_alike (same.order c) (same.slotState c) (same.recorded c)).withLink (fun k => by rw [same.progress])
    (by rw [same.progress, same.linkState]; exact (h c).locked)

theorem congr (h : s.Serves jobs) {jobs' : List Job} (same : ∀ j, j ∈ jobs' ↔ j ∈ jobs) : s.Serves jobs' :=
  fun c => { h c with scored := fun k => ((h c).scored k).trans (same _).symm }

/-- A change at one camera. -/
theorem atCamera (h : s.Serves jobs) {jobs' : List Job} (here : (t.ring c).Fits (t.link c) (fun k => ⟨c, k⟩ ∈ jobs'))
    (rings : ∀ d, d ≠ c → t.ring d = s.ring d) (links : ∀ d, d ≠ c → t.link d = s.link d)
    (others : ∀ d k, d ≠ c → (⟨d, k⟩ ∈ jobs' ↔ (⟨d, k⟩ : Job) ∈ jobs)) : t.Serves jobs' := fun d => by
  by_cases same : d = c
  · rw [same]
    exact here
  · rw [rings d same, links d same]
    exact { h d with scored := fun k => ((h d).scored k).trans (others d k same).symm }

theorem setLink (h : s.Serves jobs) {l : Link} (fits : (s.ring c).Fits l (fun k => ⟨c, k⟩ ∈ jobs)) :
    (s.setLink c l).Serves jobs := by
  refine h.atCamera (c := c) ?_ (fun _ _ => rfl) (fun d other => ?_) (fun _ _ _ => Iff.rfl)
  · simpa using fits
  · rw [State.setLink_link, if_neg other]

/-- The slot of a job holds a record. -/
theorem recorded (h : s.Serves jobs) {job : Job} (mem : job ∈ jobs) : (s.slot job.cam job.slot).record.isSome = true :=
  ((h job.cam).recorded job.slot).mpr (by rw [((h job.cam).scored job.slot).mpr mem]; decide)

/-- The slot of a job becomes READY: the job is done with. -/
theorem ready (h : s.Serves jobs) {job : Job} (mem : job ∈ jobs) {v : Slot} (state : v.state = .ready)
    (record : v.record.isSome = true) {jobs' : List Job} (rest : ∀ j, j ∈ jobs' ↔ j ∈ jobs ∧ j ≠ job) :
    (s.setSlot job.cam job.slot v).Serves jobs' := by
  have scored := ((h job.cam).scored job.slot).mpr mem
  have idle := mt ((h job.cam).filling job.slot).mpr (by rw [scored]; decide)
  refine h.atCamera (c := job.cam) ?_ (fun d other => ?_) (fun _ _ => rfl) (fun d k other => ?_)
  · rw [State.setSlot_ring, if_pos rfl]
    refine (h job.cam).put (by rw [scored]; decide) (by rw [state]; decide) record ?_ ?_ (h job.cam).locked
      (fun k other => ⟨Iff.rfl, ?_⟩)
    · exact iff_of_false (by rw [state]; decide) idle
    · exact iff_of_false (by rw [state]; decide) (fun x => ((rest _).mp x).2 rfl)
    · exact (rest _).trans (and_iff_left (fun same => other (congrArg Job.slot same)))
  · rw [State.setSlot_ring, if_neg other]
  · exact (rest _).trans (and_iff_left (fun same => other (congrArg Job.cam same)))

/-- The slot being filled becomes SCORED: a job is called for. -/
theorem scored (h : s.Serves jobs) (receiving : (s.link c).progress = .receiving k) {l : Link} (ended : l.progress = .none)
    {v : Slot} (state : v.state = .scored) (record : v.record.isSome = true) :
    ((s.setLink c l).setSlot c k v).Serves (⟨c, k⟩ :: jobs) := by
  have filling := ((h c).filling k).mpr receiving
  refine h.atCamera (c := c) ?_ (fun d other => ?_) (fun d other => ?_) (fun d j other => ?_)
  · rw [State.setSlot_ring, if_pos rfl]
    refine (h c).put (by rw [filling]; decide) (by rw [state]; decide) record ?_ ?_ ?_ (fun j other => ⟨?_, ?_⟩)
    · simp [state, State.setSlot, ended]
    · simp [state]
    · simp [State.setSlot, ended]
    · simp [State.setSlot, ended, receiving, Ne.symm other]
    · simp [other]
  · rw [State.setSlot_ring, if_neg other, State.setLink_ring]
  · change (s.setLink c l).link d = _
    rw [State.setLink_link, if_neg other]
  · simp [other]

end State.Serves

theorem State.StoreOk.of_same {s t : State} (h : s.StoreOk) (same : s.SameStore t) : t.StoreOk := by
  obtain ⟨serves, rest⟩ := State.storeOk_iff.mp h
  rw [State.storeOk_iff, same.engine]
  exact ⟨serves.of_same same.toSameSlots, rest⟩

/-- Outputs and stills reach only the pins of the store (R135). -/
theorem State.StoreOk.outputFrame {s t : State} (h : s.StoreOk) (frame : s.OutputFrame t) : t.StoreOk := by
  obtain ⟨serves, rest⟩ := State.storeOk_iff.mp h
  rw [State.storeOk_iff, frame.engine]
  refine ⟨fun c => ?_, rest⟩
  have slot (k : SlotId) := congrArg (fun r : Ring => r.slots.get k) (frame.rings c)
  simp only [Ring.apartFromPins, PerSlot.get_map, Slot.mk.injEq] at slot
  have link : t.link c = s.link c := congrArg (·.get c) frame.links
  rw [link]
  exact (serves c).of_alike (congrArg Ring.order (frame.rings c) :) (fun k => (slot k).1) (fun k => by rw [(slot k).2.2.1])

/-! ### Jobs that start, wait and are withdrawn (R61, R85, R87) -/

theorem Slot.mapRecord_isSome (k : Slot) (f : Record → Record) : (k.mapRecord f).record.isSome = k.record.isSome := by
  simp [Slot.mapRecord]

/-- Of the jobs with a new one of camera `job.cam`, the withdrawal of that camera's waiting job leaves the others. -/
theorem Engine.mem_withdrawn {e : Engine} {job old : Job} (nodup : (job :: e.jobs).Nodup) (cams : (e.queue.map (·.cam)).Nodup)
    (mem : old ∈ e.queue) (j : Job) :
    j ∈ job :: ({ e with queue := e.queue.filter (fun q => q.cam ≠ old.cam) } : Engine).jobs ↔
      j ∈ job :: e.jobs ∧ j ≠ old := by
  obtain ⟨new, nodup⟩ := List.nodup_cons.mp nodup
  have queued : old ∈ e.jobs := List.mem_append_right _ mem
  have one (q : Job) (hq : q ∈ e.queue) : q.cam ≠ old.cam ↔ q ≠ old :=
    not_congr ⟨fun same => List.inj_on_of_nodup_map cams hq mem same, fun same => congrArg Job.cam same⟩
  have notNew : job ≠ old := fun same => new (same ▸ queued)
  have notRunning (q : Job) (hq : q ∈ (e.running.map (·.job)).toList) : q ≠ old := fun same =>
    List.disjoint_of_nodup_append nodup (same ▸ hq) mem
  simp only [Engine.jobs, List.mem_cons, List.mem_append, List.mem_filter, decide_eq_true_eq]
  constructor
  · rintro (rfl | running | ⟨waiting, other⟩)
    · exact ⟨.inl rfl, notNew⟩
    · exact ⟨.inr (.inl running), notRunning j running⟩
    · exact ⟨.inr (.inr waiting), (one j waiting).mp other⟩
  · rintro ⟨rfl | running | waiting, other⟩
    · exact .inl rfl
    · exact .inr (.inl running)
    · exact .inr (.inr ⟨waiting, (one j waiting).mpr other⟩)

section
variable {s : State} {job : Job}

theorem State.phaseWrites_slots (s : State) (job : Job) (info : Option PhaseInfo) (p : XY (Option Int)) :
    s.SameSlots (s.phaseWrites job info p) :=
  (State.SameSlots.setSlot s job.cam job.slot (v := (s.slot job.cam job.slot).mapRecord (fun r => r.withPhase info p))
    rfl rfl (Slot.mapRecord_isSome _ _)).trans (.of_eq rfl rfl)

/-- A job that starts changes no slot but for what a phase event writes into its record (R89). -/
theorem State.startJob_slots (s : State) (job : Job) : s.SameSlots (s.startJob job) :=
  (s.phaseWrites_slots job _ _).trans (.of_eq rfl rfl)

/-- The engine after the oldest waiting job, if any, was started, has the jobs it had (R87). -/
theorem State.startNext_storeOk (serves : s.Serves s.engine.jobs) (nodup : s.engine.jobs.Nodup)
    (cams : (s.engine.queue.map (·.cam)).Nodup) : s.startNext.StoreOk := by
  unfold State.startNext
  split
  next job rest idle waiting =>
    have jobs : s.engine.jobs = job :: rest := by simp [Engine.jobs, idle, waiting]
    rw [jobs] at serves nodup
    rw [waiting] at cams
    have taken : (s.setEngine { s.engine with queue := rest }).Serves (job :: rest) := serves.of_same (.of_eq rfl rfl)
    have started := taken.of_same (State.startJob_slots _ job)
    exact State.storeOk_iff.mpr ⟨started, nodup, (List.nodup_cons.mp cams).2, nofun⟩
  next started =>
    refine State.storeOk_iff.mpr ⟨serves, nodup, cams, fun idle => ?_⟩
    cases waiting : s.engine.queue with
    | nil => rfl
    | cons job rest => exact absurd waiting (started job rest idle)

/-- A withdrawn job's slot is READY (R61). -/
theorem State.Serves.supersede {jobs jobs' : List Job} (serves : s.Serves jobs) (mem : job ∈ jobs)
    (rest : ∀ j, j ∈ jobs' ↔ j ∈ jobs ∧ j ≠ job) : (s.supersede job).Serves jobs' := by
  have noted (info : Option PhaseInfo) (p : XY (Option Int)) := serves.of_same (s.phaseWrites_slots job info p)
  have unmeasured (info : Option PhaseInfo) (p : XY (Option Int)) (sh : XY Int) :=
    (noted info p).ready mem (v := ((s.phaseWrites job info p).slot job.cam job.slot).unmeasured sh) rfl
      ((Slot.mapRecord_isSome _ _).trans (((noted info p).recorded mem))) rest
  exact (unmeasured _ _ _).of_same (.setRing _ _ rfl rfl)

/-- A camera's waiting job withdrawn: its slot is READY, the other jobs stay (R61). -/
theorem State.withdraw_serves (serves : s.Serves (job :: s.engine.jobs)) (nodup : (job :: s.engine.jobs).Nodup)
    (cams : (s.engine.queue.map (·.cam)).Nodup) :
    (s.withdraw job.cam).engine = { s.engine with queue := s.engine.queue.filter (fun j => j.cam ≠ job.cam) } ∧
      (s.withdraw job.cam).Serves (job :: (s.withdraw job.cam).engine.jobs) := by
  unfold State.withdraw
  split
  next found =>
    have none := List.find?_eq_none.mp found
    have all : s.engine.queue.filter (fun j => j.cam ≠ job.cam) = s.engine.queue :=
      List.filter_eq_self.mpr (by simpa using none)
    rw [all]
    exact ⟨rfl, serves⟩
  next old found =>
    have mem := List.mem_of_find?_eq_some found
    have cam : old.cam = job.cam := by simpa using List.find?_some found
    refine ⟨rfl, ?_⟩
    have taken (e : Engine) : (s.setEngine e).Serves (job :: s.engine.jobs) := serves.of_same (.of_eq rfl rfl)
    exact (taken _).supersede (.tail _ (List.mem_append_right _ mem)) (fun j => by
      rw [← cam]
      exact Engine.mem_withdrawn nodup cams mem j)

/-- The hand-off of a job to a store that has it SCORED (R85). -/
theorem State.handOff_storeOk (serves : s.Serves (job :: s.engine.jobs)) (nodup : (job :: s.engine.jobs).Nodup)
    (cams : (s.engine.queue.map (·.cam)).Nodup) : (s.handOff job).StoreOk := by
  obtain ⟨engine, withdrawn⟩ := State.withdraw_serves serves nodup cams
  have kept : (s.engine.queue.filter (fun j => j.cam ≠ job.cam)).Sublist s.engine.queue := List.filter_sublist
  have perm (e : Engine) : ({ e with queue := e.queue ++ [job] } : Engine).jobs.Perm (job :: e.jobs) := by
    rw [Engine.jobs, ← List.append_assoc]
    exact List.perm_append_singleton job e.jobs
  have handed (e : Engine) := State.SameSlots.of_eq (s := s.withdraw job.cam) (t := (s.withdraw job.cam).setEngine e) rfl rfl
  refine State.startNext_storeOk (((withdrawn.of_same (handed _))).congr fun j => (perm _).mem_iff) ?_ ?_
  · refine (perm _).nodup_iff.mpr (nodup.sublist (List.Sublist.cons_cons _ ?_))
    rw [engine]
    exact List.Sublist.append_left kept _
  · simp only [State.setEngine_engine, engine, List.map_append]
    refine List.Nodup.append (cams.sublist (kept.map _)) (List.nodup_singleton _) ?_
    simp

/-- The completion of the running job makes its slot READY (R62, R96). -/
theorem State.completeJob_storeOk (h : s.StoreOk) : s.completeJob.StoreOk := by
  unfold State.completeJob
  split
  next => exact h
  next j running =>
    obtain ⟨serves, nodup, cams, -⟩ := State.storeOk_iff.mp h
    have jobs : s.engine.jobs = j.job :: s.engine.queue := by simp [Engine.jobs, running]
    rw [jobs] at serves nodup
    obtain ⟨done, nodup⟩ := List.nodup_cons.mp nodup
    have record := serves.recorded (List.mem_cons_self ..)
    have rest (q : Job) : q ∈ s.engine.queue ↔ q ∈ j.job :: s.engine.queue ∧ q ≠ j.job := by
      rw [List.mem_cons]
      exact ⟨fun mem => ⟨.inr mem, fun same => done (same ▸ mem)⟩, fun ⟨mem, other⟩ => mem.resolve_left other⟩
    split
    next missing =>
      rw [State.record?] at missing
      rw [missing] at record
      cases record
    next r _ =>
      have learned (x : Context) (t : PhaseTable) :
          ((s.setContext j.job.cam x).setTable j.job.cam t).Serves (j.job :: s.engine.queue) :=
        serves.of_same (.of_eq rfl rfl)
      have ready (x : Context) (t : PhaseTable) (meas : XY AxisMeas) (sh : XY Int) := (learned x t).ready (List.mem_cons_self ..)
        (v := (s.slot j.job.cam j.job.slot).registered r meas sh) rfl rfl rest
      exact State.startNext_storeOk ((ready _ _ _ _).of_same (.of_eq rfl rfl)) nodup cams

/-! ### Frames that end, and links that leave their frame (R19, R58–R60, R63) -/

variable {c : CamId} {k : SlotId}

/-- A ring from which the slot being filled was freed, with other counts. -/
theorem State.Serves.freed {jobs : List Job} (serves : s.Serves jobs) (receiving : (s.link c).progress = .receiving k)
    {l : Link} (ended : l.progress = .none) {r : Ring} (slots : r.slots = ((s.ring c).free k).slots)
    (order : r.order = ((s.ring c).free k).order) : ((s.setLink c l).setRing c r).Serves jobs := by
  refine serves.atCamera (c := c) ?_ (fun d other => ?_) (fun d other => ?_) (fun _ _ _ => Iff.rfl)
  · rw [State.setRing_ring, if_pos rfl, State.setRing_link, State.setLink_link, if_pos rfl]
    exact ((serves c).free receiving ended).of_alike order (fun k => by rw [slots]) (fun k => by rw [slots])
  · rw [State.setRing_ring, if_neg other, State.setLink_ring]
  · rw [State.setRing_link, State.setLink_link, if_neg other]

/-- The end of a frame being received (R58–R60). -/
theorem State.frameEnd_storeOk (h : s.StoreOk) (receiving : (s.link c).progress = .receiving k) {l : Link}
    (ended : l.progress = .none) (wellFormed : Bool) (n : Nat) : ((s.setLink c l).storeFrameEnd c wellFormed n).StoreOk := by
  obtain ⟨serves, nodup, cams, idle⟩ := State.storeOk_iff.mp h
  have filling : ((s.setLink c l).ring c).filling? = some k := (serves c).filling?_eq receiving
  have notJob : (⟨c, k⟩ : Job) ∉ s.engine.jobs := fun mem => by
    have scored := ((serves c).scored k).mpr mem
    rw [((serves c).filling k).mpr receiving] at scored
    cases scored
  have record : (s.slot c k).record.isSome = true :=
    ((serves c).recorded k).mpr (by rw [((serves c).filling k).mpr receiving]; decide)
  have freed {r : Ring} (slots : r.slots = ((s.ring c).free k).slots) (order : r.order = ((s.ring c).free k).order) :
      ((s.setLink c l).setRing c r).StoreOk :=
    State.storeOk_iff.mpr ⟨serves.freed receiving ended slots order, nodup, cams, idle⟩
  unfold State.storeFrameEnd
  simp only [filling]
  cases wellFormed with
  | false => exact freed (r := { (s.ring c).free k with malformed := bump (s.ring c).malformed }) rfl rfl
  | true =>
    change State.StoreOk (State.wellFormedEnd _ c k n)
    unfold State.wellFormedEnd
    dsimp only
    split
    next =>
      exact (freed (r := { (s.ring c).free k with rejected := bump (s.ring c).rejected }) rfl rfl).of_same
        (.of_slots (.of_eq rfl rfl) rfl rfl rfl)
    next v _ =>
      have scored := serves.scored receiving ended (v := (s.slot c k).scored n v) rfl
        ((Slot.mapRecord_isSome _ _).trans record)
      have screened (sc : Screen) : (((s.setLink c l).setScreen c sc).setSlot c k ((s.slot c k).scored n v)).Serves
          (⟨c, k⟩ :: s.engine.jobs) := scored.of_same (.of_eq rfl rfl)
      refine State.handOff_storeOk ((screened _).of_same (.setRing _ c ?_ ?_)) (List.nodup_cons.mpr ⟨notJob, nodup⟩) cams <;>
      · cases v <;> rfl

/-- A link that goes on with no frame received before or after. -/
theorem State.setLink_storeOk (h : s.StoreOk) {l : Link} (before : ∀ k, (s.link c).progress ≠ .receiving k)
    (after : ∀ k, l.progress ≠ .receiving k) (locked : l.progress ≠ .none → l.state = .locked) : (s.setLink c l).StoreOk := by
  obtain ⟨serves, rest⟩ := State.storeOk_iff.mp h
  exact State.storeOk_iff.mpr
    ⟨serves.setLink ((serves c).withLink (fun k => iff_of_false (after k) (before k)) locked), rest⟩

/-- Link-down frees the slot being filled; the link then leaves its frame (R10, R63). -/
theorem State.linkDown_storeOk (h : s.StoreOk) {l : Link} (ended : l.progress = .none) :
    ((s.linkDown c).setLink c l).StoreOk := by
  have below (u : State) (ok : (u.setLink c l).StoreOk) : (((u.engineLinkDown c).screenLinkDown c).setLink c l).StoreOk :=
    ok.of_same (.of_slots (.of_eq rfl rfl) rfl rfl rfl)
  refine below _ ?_
  obtain ⟨serves, rest⟩ := State.storeOk_iff.mp h
  unfold State.storeLinkDown
  split
  next empty =>
    refine State.setLink_storeOk h (fun k receiving => ?_) (by simp [ended]) (fun x => absurd ended x)
    rw [(serves c).filling?_eq receiving] at empty
    cases empty
  next k found =>
    have receiving := ((serves c).filling k).mp (by simpa using List.find?_some found)
    exact State.storeOk_iff.mpr
      ⟨serves.freed receiving ended (r := { (s.ring c).free k with aborted := bump (s.ring c).aborted }) rfl rfl, rest⟩

/-- The slot that the store allocates is filled (R53). -/
theorem State.fillSlot_storeOk (h : s.StoreOk) {l : Link} (before : ∀ j, (s.link c).progress ≠ .receiving j)
    (slot : (s.ring c).allocate? = some k) (receiving : l.progress = .receiving k) (locked : l.state = .locked) :
    ((s.fillSlot c k).setLink c l).StoreOk := by
  obtain ⟨serves, rest⟩ := State.storeOk_iff.mp h
  refine State.storeOk_iff.mpr
    ⟨serves.atCamera (c := c) ?_ (fun d other => ?_) (fun d other => ?_) (fun _ _ _ => Iff.rfl), rest⟩
  · have state := (Ring.allocate?_spec slot).imp_right And.left
    simpa [State.fillSlot] using (serves c).fill before state _ receiving locked
  · simp [State.fillSlot, other]
  · simp [State.fillSlot, other]

/-- With everything cleared there is nothing to agree. -/
theorem State.Cleared.storeOk (h : s.Cleared) : s.StoreOk := by
  refine State.storeOk_iff.mpr ⟨fun c => ?_, ?_⟩
  · have slots := h.slots c
    simp only [State.slot] at slots
    constructor <;> simp [h.order, h.progress, h.engine, slots, Engine.jobs]
  · simp [h.engine, Engine.jobs]

end

/-- Every move keeps the store consistent. -/
theorem State.StoreOk.moves {s t : State} (h : s.StoreOk) (moves : s.Moves t) : t.StoreOk := by
  induction moves with
  | refl => exact h
  | same _ same ok => exact ok.of_same same
  | train _ c l unlocked progress ok =>
    have idle := Not.imp_symm ((State.storeOk_iff.mp ok).1 c).locked unlocked
    have ended : l.progress = .none := progress.elim id (·.trans idle)
    exact State.setLink_storeOk ok (by simp [idle]) (by simp [ended]) (by simp [ended])
  | unstored _ c l before after locked ok => exact State.setLink_storeOk ok before after locked
  | drop _ c l after ok => exact State.linkDown_storeOk ok after
  | fill _ c k l before slot after locked ok => exact State.fillSlot_storeOk ok before slot after locked
  | frameEnd _ c k l wellFormed concealed before after ok => exact State.frameEnd_storeOk ok before after _ _
  | complete _ ok => exact State.completeJob_storeOk ok
  | showStill _ o ok => exact ok.outputFrame ((State.OutputFrame.refl _).showStill o)
  | showLive _ o ok => exact ok.outputFrame ((State.OutputFrame.refl _).showLive o)
  | startCopy _ r _ ok => exact ok.outputFrame ((State.OutputFrame.refl _).startCopy r _)
  | stopCopy _ _ ok => exact ok.outputFrame ((State.OutputFrame.refl _).stopCopy _)
  | clear cleared => exact cleared.storeOk

end Sys2Proof.Machine

open Sys2Proof Sys2Proof.Machine

/-- Settles O12: every step is made of moves, and every move keeps the store consistent. -/
theorem frameStoreStaysConsistent : Obligations.FrameStoreStaysConsistent := by
  unfold Obligations.FrameStoreStaysConsistent
  exact fun _ _ ok e => ok.moves (.step e)

end

section
/-! Pins stay exact: every slot carries as many as it has holders, through every move (R50, R135, R177, R179–R181). -/

namespace Sys2Proof.Machine

/-! ### Pins against a list of holders -/

theorem Ring.newestReady?_ready {r : Ring} {k : SlotId} (h : r.newestReady? = some k) : (r.slots.get k).state = .ready := by
  simpa using List.find?_some h

theorem Ring.filling?_state {r : Ring} {k : SlotId} (h : r.filling? = some k) : (r.slots.get k).state = .filling := by
  simpa using List.find?_some h

/-- The pins of every slot are its holders among `l`, and a slot with pins is READY. -/
def State.Pinned (s : State) (l : List (CamId × Option SlotId)) : Prop :=
  ∀ (c : CamId) (k : SlotId), (s.slot c k).pins = holdersOf l c k ∧ (0 < (s.slot c k).pins → (s.slot c k).state = .ready)

namespace State.Pinned

variable {s t : State} {l m : List (CamId × Option SlotId)} {c : CamId} {k : SlotId}

theorem of_rings (h : s.Pinned l) (rings : t.rings = s.rings) : t.Pinned l := by
  intro c k
  rw [State.slot, State.ring, rings]
  exact h c k

theorem perm (h : s.Pinned l) (same : l.Perm m) : s.Pinned m := fun c k => by
  rw [holdersOf, ← same.count_eq]
  exact h c k

/-- A READY slot takes one more pin. -/
theorem pin (h : s.Pinned l) (ready : (s.slot c k).state = .ready) : (s.pinSlot c k).Pinned ((c, some k) :: l) := by
  intro d j
  obtain ⟨pins, pinned⟩ := h d j
  rw [State.pinSlot, State.setSlot_slot, holdersOf_cons]
  split
  next same =>
    obtain ⟨rfl, rfl⟩ := same
    exact ⟨by simp [Slot.pin, pins], fun _ => ready⟩
  next other =>
    rw [if_neg (by simpa [eq_comm] using other)]
    exact ⟨pins, pinned⟩

/-- A held slot gives a pin back. -/
theorem unpin (h : s.Pinned ((c, some k) :: l)) : (s.unpinSlot c k).Pinned l := by
  intro d j
  obtain ⟨pins, pinned⟩ := h d j
  rw [holdersOf_cons] at pins
  rw [State.unpinSlot, State.setSlot_slot]
  split
  next same =>
    obtain ⟨rfl, rfl⟩ := same
    rw [if_pos rfl] at pins
    exact ⟨by simp [Slot.unpin, pins], fun _ => pinned (by omega)⟩
  next other =>
    rw [if_neg (by simpa [eq_comm] using other)] at pins
    exact ⟨pins, pinned⟩

/-- A holder without a slot counts for nothing. -/
theorem none_iff : s.Pinned ((c, none) :: l) ↔ s.Pinned l := by
  simp only [State.Pinned, holdersOf_cons]
  simp

theorem releasePin {w : Window} (h : s.Pinned ((w.cam, w.slot) :: l)) : (s.releasePin w).Pinned l := by
  unfold State.releasePin
  split
  next empty => exact none_iff.mp (empty ▸ h)
  next k held => exact unpin (held ▸ h)

/-- A window gives back its pin and takes one on its camera's newest READY slot, if any (R134, R135). -/
theorem selectFor {w : Window} (h : s.Pinned ((w.cam, w.slot) :: l)) (c : CamId) :
    (s.selectFor w c).1.Pinned (((s.selectFor w c).2.cam, (s.selectFor w c).2.slot) :: l) := by
  unfold State.selectFor
  split
  next k newest =>
    have ready : (s.slot c k).state = .ready := Ring.newestReady?_ready newest
    split
    next => exact h
    next => exact releasePin ((h.pin ready).perm (.swap _ _ _))
  next =>
    split
    next => exact h
    next => exact none_iff.mpr h.releasePin

theorem pinSource {w : WinSource} (h : s.Pinned l) (ready : ∀ k, w.slot = some k → (s.slot w.cam k).state = .ready) :
    (s.pinSource w).Pinned ((w.cam, w.slot) :: l) := by
  unfold State.pinSource
  split
  next empty => exact empty ▸ none_iff.mpr h
  next k held => exact held ▸ h.pin (ready k held)

theorem unpinSource {w : WinSource} (h : s.Pinned ((w.cam, w.slot) :: l)) : (s.unpinSource w).Pinned l := by
  unfold State.unpinSource
  split
  next empty => exact none_iff.mp (empty ▸ h)
  next k held => exact unpin (held ▸ h)

theorem pinSource_state (s : State) (w : WinSource) (c : CamId) (k : SlotId) :
    ((s.pinSource w).slot c k).state = (s.slot c k).state := by
  unfold State.pinSource State.pinSlot
  split
  next => rfl
  next =>
    rw [State.setSlot_slot]
    split
    next same => rw [same.1, same.2]; rfl
    next => rfl

/-- The copier pins the READY slots of a copy's sources (R177). -/
theorem pinSources (h : s.Pinned l) (ws : List WinSource)
    (ready : ∀ w ∈ ws, ∀ k, w.slot = some k → (s.slot w.cam k).state = .ready) :
    (ws.foldl State.pinSource s).Pinned (ws.map (fun w => (w.cam, w.slot)) ++ l) := by
  induction ws generalizing s l with
  | nil => exact h
  | cons w ws ih =>
    refine (ih (h.pinSource (ready w (.head _))) fun v mem k held => ?_).perm List.perm_middle
    rw [pinSource_state]
    exact ready v (.tail _ mem) k held

/-- The copier gives back the pins of a copy's sources (R179–R181). -/
theorem unpinSources {ws : List WinSource} (h : s.Pinned (ws.map (fun w => (w.cam, w.slot)) ++ l)) :
    (ws.foldl State.unpinSource s).Pinned l := by
  induction ws generalizing s with
  | nil => exact h
  | cons w ws ih => exact ih (unpinSource h)

end State.Pinned

/-! ### The holders (R50, R135, R177) -/

/-- What the windows of output `o` hold. -/
def Compositor.holders (oc : Compositor) : List (CamId × Option SlotId) :=
  [(oc.win1.cam, oc.win1.slot), (oc.win2.cam, oc.win2.slot)]

/-- What the sources of the running copy, if any, hold. -/
def StillUnit.holders (u : StillUnit) : List (CamId × Option SlotId) :=
  match u.running with
  | none => []
  | some (_, src) => src.windows.map (fun w => (w.cam, w.slot))

/-- The clauses of `State.PinsOk` on a compositor: its windows never hold slots of one camera, and the second holds one only in
a SPLIT. -/
structure Compositor.Holds (oc : Compositor) : Prop where
  apart : oc.win1.slot.isSome = true → oc.win2.slot.isSome = true → oc.win1.cam ≠ oc.win2.cam
  second : oc.win2.slot.isSome = true → oc.shown.layout = .split

/-- The clause of `State.PinsOk` on the running copy: its sources never hold slots of one camera. -/
def StillUnit.Holds (u : StillUnit) : Prop :=
  ∀ r w v, u.running = some (r, .split w v) → w.slot.isSome = true → v.slot.isSome = true → w.cam ≠ v.cam

section
variable {s t : State}

theorem State.pinHolders_perm (s : State) (o : OutId) :
    s.pinHolders.Perm ((s.output o).holders ++ ((s.output o.other).holders ++ s.stillUnit.holders)) := by
  cases o
  · exact .refl _
  · exact (List.perm_append_comm (l₁ := (s.output .a).holders) (l₂ := (s.output .b).holders)).append_right _ |>.trans
      (by rw [List.append_assoc]; exact .refl _)

theorem holdersOf_append (l m : List (CamId × Option SlotId)) (c : CamId) (k : SlotId) :
    holdersOf (l ++ m) c k = holdersOf l c k + holdersOf m c k := List.count_append

/-- Of two holders that never hold slots of one camera, one at most holds a slot. -/
theorem holdersOf_pair_le {d e : CamId} {i j : Option SlotId} (apart : i.isSome = true → j.isSome = true → d ≠ e) (c : CamId)
    (k : SlotId) : holdersOf [(d, i), (e, j)] c k ≤ 1 := by
  rw [holdersOf_cons, holdersOf_cons, holdersOf, List.count_nil]
  simp only [Prod.mk.injEq]
  split
  next first =>
    split
    next second => exact absurd (second.1.trans first.1.symm) (apart (by simp [second.2]) (by simp [first.2]))
    next => omega
  next => split <;> omega

theorem Compositor.Holds.le {oc : Compositor} (h : oc.Holds) (c : CamId) (k : SlotId) : holdersOf oc.holders c k ≤ 1 :=
  holdersOf_pair_le h.apart c k

theorem StillUnit.Holds.le {u : StillUnit} (h : u.Holds) (c : CamId) (k : SlotId) : holdersOf u.holders c k ≤ 1 := by
  unfold StillUnit.holders
  split
  next => exact Nat.zero_le _
  next r src running =>
    cases src with
    | full w => exact List.count_le_length
    | split w v => exact holdersOf_pair_le (h r w v running) c k

/-- The bound of three pins follows from the holders: one for each output and one for the copier. -/
theorem State.pinsOk_iff : s.PinsOk ↔ s.Pinned s.pinHolders ∧ (∀ o, (s.output o).Holds) ∧ s.stillUnit.Holds := by
  constructor
  · rintro ⟨pins, apart, second, sources⟩
    exact ⟨fun c k => (pins c k).imp_right And.right, fun o => ⟨apart o, second o⟩, sources⟩
  · rintro ⟨pins, windows, sources⟩
    refine ⟨fun c k => ?_, fun o => (windows o).apart, fun o => (windows o).second, sources⟩
    obtain ⟨held, ready⟩ := pins c k
    refine ⟨held, ?_, ready⟩
    rw [held, holdersOf, (s.pinHolders_perm .a).count_eq]
    have a := (windows .a).le c k
    have b := (windows .b).le c k
    have copy := sources.le c k
    change holdersOf (_ ++ (_ ++ _)) c k ≤ 3
    rw [holdersOf_append, holdersOf_append]
    change _ + (holdersOf (s.output .b).holders c k + _) ≤ 3
    omega

/-! ### Outputs (R134, R135, R143) -/

theorem State.releasePin_rest (s : State) (w : Window) :
    (s.releasePin w).outputs = s.outputs ∧ (s.releasePin w).stillUnit = s.stillUnit := by
  unfold State.releasePin
  split <;> exact ⟨rfl, rfl⟩

theorem State.selectFor_rest (s : State) (w : Window) (c : CamId) :
    (s.selectFor w c).1.outputs = s.outputs ∧ (s.selectFor w c).1.stillUnit = s.stillUnit := by
  unfold State.selectFor
  split
  · split
    · exact ⟨rfl, rfl⟩
    · exact State.releasePin_rest _ w
  · split
    · exact ⟨rfl, rfl⟩
    · exact s.releasePin_rest w

theorem State.selectFor_cam (s : State) (w : Window) (c : CamId) : (s.selectFor w c).2.cam = c := by
  unfold State.selectFor
  split
  · split
    next same => exact same.1
    next => rfl
  · split
    next same => exact same.1
    next => rfl

/-! Crop origin and border state leave what a window holds (R136, R138). -/

theorem State.dress_cam (s : State) (w : Window) : (s.dress w).cam = w.cam := by
  unfold State.dress
  split
  · rfl
  · split <;> rfl

theorem State.dress_slot (s : State) (w : Window) : (s.dress w).slot = w.slot := by
  unfold State.dress
  split
  · rfl
  · split <;> rfl

/-- A SPLIT that is shown is of two cameras (R132). -/
theorem View.normalised_cams {v : View} {c : CamId} (h : v.normalised.camB? = some c) :
    v.normalised.camA ≠ c ∧ v.normalised.layout = .split := by
  cases v with
  | full => cases h
  | split a b =>
    unfold View.normalised at h ⊢
    dsimp only at h ⊢
    split at h
    next => cases h
    next other =>
      cases h
      rw [if_neg other]
      exact ⟨other, rfl⟩

/-- An output whose windows take other slots: `t` is the store once it is repinned. -/
theorem State.PinsOk.setOutput (h : s.PinsOk) (o : OutId) {oc : Compositor} (holds : oc.Holds)
    (pinned : t.Pinned (oc.holders ++ ((s.output o.other).holders ++ s.stillUnit.holders)))
    (outputs : t.outputs = s.outputs) (unit : t.stillUnit = s.stillUnit) : (t.setOutput o oc).PinsOk := by
  obtain ⟨-, windows, sources⟩ := State.pinsOk_iff.mp h
  have here : (t.setOutput o oc).output o = oc := by simp
  have other (q : OutId) (h : q ≠ o) : (t.setOutput o oc).output q = s.output q := by
    rw [State.setOutput_output, if_neg h, State.output, outputs, State.output]
  have unit' : (t.setOutput o oc).stillUnit = s.stillUnit := unit
  refine State.pinsOk_iff.mpr ⟨?_, fun q => ?_, ?_⟩
  · refine State.Pinned.perm ?_ (State.pinHolders_perm _ o).symm
    rw [here, other o.other (by cases o <;> decide), unit']
    exact pinned.of_rings rfl
  · by_cases same : q = o
    · rw [same, here]; exact holds
    · rw [other q same]; exact windows q
  · rw [unit']; exact sources

/-- The pins as the windows of output `o` hold them first. -/
theorem State.PinsOk.pinned (h : s.PinsOk) (o : OutId) :
    s.Pinned ((s.output o).holders ++ ((s.output o.other).holders ++ s.stillUnit.holders)) :=
  (State.pinsOk_iff.mp h).1.perm (s.pinHolders_perm o)

theorem State.PinsOk.showStill (h : s.PinsOk) (o : OutId) : (s.showStill o).PinsOk := by
  have released := (h.pinned o).releasePin.releasePin
  refine h.setOutput o ⟨nofun, nofun⟩ (State.Pinned.none_iff.mpr (State.Pinned.none_iff.mpr released)) ?_ ?_
  · rw [(State.releasePin_rest _ _).1, (State.releasePin_rest _ _).1]
  · rw [(State.releasePin_rest _ _).2, (State.releasePin_rest _ _).2]

theorem State.PinsOk.showLive (h : s.PinsOk) (o : OutId) : (s.showLive o).PinsOk := by
  have first := (h.pinned o).selectFor ((s.output o).viewToShow (s.outParams o)).camA |>.perm (.swap _ _ _)
  obtain ⟨outputs, unit⟩ := s.selectFor_rest (s.output o).win1 ((s.output o).viewToShow (s.outParams o)).camA
  unfold State.showLive
  dsimp only
  split
  next full =>
    obtain ⟨outputs', unit'⟩ := State.releasePin_rest
      (s.selectFor (s.output o).win1 ((s.output o).viewToShow (s.outParams o)).camA).1 (s.output o).win2
    refine h.setOutput o ⟨nofun, nofun⟩ ?_ (outputs'.trans outputs) (unit'.trans unit)
    simp only [Compositor.holders, State.dress_cam, State.dress_slot]
    exact (State.Pinned.none_iff.mpr first.releasePin).perm (.swap _ _ _)
  next c split =>
    obtain ⟨outputs', unit'⟩ := State.selectFor_rest
      (s.selectFor (s.output o).win1 ((s.output o).viewToShow (s.outParams o)).camA).1 (s.output o).win2 c
    obtain ⟨cams, layout⟩ := View.normalised_cams split
    refine h.setOutput o ⟨fun _ _ => ?_, fun _ => layout⟩ ?_ (outputs'.trans outputs) (unit'.trans unit)
    · simp only [State.dress_cam, State.selectFor_cam]
      exact cams
    · simp only [Compositor.holders, State.dress_cam, State.dress_slot]
      exact (first.selectFor c).perm (.swap _ _ _)

/-! ### Copies (R177, R179–R181) -/

/-- A copy that starts or stops leaves the windows; `t` is the store once it is repinned. -/
theorem State.PinsOk.setStillUnit (h : s.PinsOk) {u : StillUnit} (holds : u.Holds)
    (pinned : t.Pinned (u.holders ++ ((s.output .a).holders ++ (s.output .b).holders))) (outputs : t.outputs = s.outputs)
    (unit : t.stillUnit = u) : t.PinsOk := by
  obtain ⟨-, windows, -⟩ := State.pinsOk_iff.mp h
  have output (o : OutId) : t.output o = s.output o := by rw [State.output, outputs, State.output]
  refine State.pinsOk_iff.mpr ⟨?_, fun o => output o ▸ windows o, unit ▸ holds⟩
  refine State.Pinned.perm ?_ (State.pinHolders_perm _ .a).symm
  rw [output, output, unit, ← List.append_assoc]
  exact pinned.perm List.perm_append_comm

theorem State.PinsOk.copied (h : s.PinsOk) :
    s.Pinned (s.stillUnit.holders ++ ((s.output .a).holders ++ (s.output .b).holders)) := by
  refine (State.pinsOk_iff.mp h).1.perm ((s.pinHolders_perm .a).trans ?_)
  rw [← List.append_assoc]
  exact List.perm_append_comm

theorem State.PinsOk.stopCopy (h : s.PinsOk) {r : CopyRecord} {src : Sources}
    (running : s.stillUnit.running = some (r, src)) : (s.stopCopy src).PinsOk := by
  have copied := h.copied
  rw [StillUnit.holders, running] at copied
  obtain ⟨unit, outputs⟩ := State.foldl_unit State.unpinSource_unit src.windows s
  exact h.setStillUnit (u := { s.stillUnit with running := none }) nofun (copied.unpinSources.of_rings rfl) outputs
    (by rw [State.stopCopy, State.setStillUnit_stillUnit, unit])

/-- What a compositor answers is what its windows hold, or nothing (R144). -/
theorem Compositor.answer_source {oc : Compositor} {w : WinSource} (mem : w ∈ oc.answer.windows) {k : SlotId}
    (held : w.slot = some k) : (w.cam, some k) ∈ oc.holders := by
  have window (v : Window) (same : w = v.source oc.frozen) : (w.cam, some k) = (v.cam, v.slot) := by
    subst same
    unfold Window.source at held ⊢
    dsimp only at held ⊢
    split at held
    next => cases held
    next => rw [held]
  rw [Compositor.holders, List.mem_cons, List.mem_singleton]
  unfold Compositor.answer at mem
  split at mem
  next => exact .inl (window _ (List.mem_singleton.mp mem))
  next =>
    rcases List.mem_cons.mp mem with first | second
    · exact .inl (window _ first)
    · exact .inr (window _ (List.mem_singleton.mp second))

/-- The sources of an answer do not hold slots of one camera. -/
theorem Compositor.answer_apart {oc : Compositor} (h : oc.Holds) {w v : WinSource} (answer : oc.answer = .split w v)
    (first : w.slot.isSome = true) (second : v.slot.isSome = true) : w.cam ≠ v.cam := by
  have slot (x : Window) (some : (x.source oc.frozen).slot.isSome = true) : x.slot.isSome = true := by
    unfold Window.source at some
    dsimp only at some
    split at some
    next => cases some
    next => exact some
  unfold Compositor.answer at answer
  split at answer
  next => cases answer
  next =>
    cases answer
    exact h.apart (slot _ first) (slot _ second)

/-- A held slot is pinned, and so READY. -/
theorem State.Pinned.ready {l : List (CamId × Option SlotId)} {c : CamId} {k : SlotId} (h : s.Pinned l)
    (held : (c, some k) ∈ l) : (s.slot c k).state = .ready := by
  obtain ⟨pins, ready⟩ := h c k
  exact ready (by rw [pins]; exact List.count_pos_iff.mpr held)

theorem State.PinsOk.startCopy (h : s.PinsOk) (r : CopyRecord) (idle : s.stillUnit.running = none) :
    (s.startCopy r (s.output r.output).answer).PinsOk := by
  obtain ⟨-, windows, -⟩ := State.pinsOk_iff.mp h
  have copied := h.copied
  rw [StillUnit.holders, idle] at copied
  obtain ⟨running, -, outputs⟩ := s.startCopy_unit r (s.output r.output).answer
  refine h.setStillUnit (u := (s.startCopy r (s.output r.output).answer).stillUnit) (fun q w v started => ?_) ?_ outputs rfl
  · rw [running, Option.some.injEq, Prod.mk.injEq] at started
    exact Compositor.answer_apart (windows r.output) started.2
  · rw [StillUnit.holders, running]
    have pinned (t : State) (rings : t.rings = s.rings) := State.Pinned.pinSources (copied.of_rings rings)
      (s.output r.output).answer.windows fun w mem k held => by
        rw [State.slot, State.ring, rings]
        exact ((h.pinned r.output).ready (List.mem_append_left _ (Compositor.answer_source mem held)) :)
    exact pinned _ rfl

/-! ### Pictures (R49, R53, R58–R63) -/

/-- From `s` to `t` every slot keeps its pins, and a pinned READY slot stays READY. -/
def State.KeepsPins (s t : State) : Prop :=
  ∀ (c : CamId) (k : SlotId), (t.slot c k).pins = (s.slot c k).pins ∧
    (0 < (s.slot c k).pins → (s.slot c k).state = .ready → (t.slot c k).state = .ready)

namespace State.KeepsPins

variable {u : State} {c : CamId} {k : SlotId}

theorem of_same (h : s.SameSlots t) : s.KeepsPins t := fun c k =>
  ⟨h.pins c k, fun _ ready => (h.slotState c k).trans ready⟩

theorem refl (s : State) : s.KeepsPins s := of_same (.refl s)

theorem of_rings (rings : t.rings = s.rings) : s.KeepsPins t := fun c k => by
  rw [State.slot, State.ring, rings]
  exact ⟨rfl, fun _ => id⟩

theorem trans (h : s.KeepsPins t) (g : t.KeepsPins u) : s.KeepsPins u := fun c k => by
  obtain ⟨pins, ready⟩ := h c k
  obtain ⟨pins', ready'⟩ := g c k
  exact ⟨pins'.trans pins, fun pinned state => ready' (pins ▸ pinned) (ready pinned state)⟩

/-- One slot of a ring changes: it was not READY, had no pin, or is READY now. -/
theorem setRing (s : State) {r : Ring} {v : Slot} (slots : r.slots = (s.ring c).slots.set k v)
    (pins : v.pins = (s.slot c k).pins)
    (ready : (s.slot c k).state ≠ .ready ∨ (s.slot c k).pins = 0 ∨ v.state = .ready) : s.KeepsPins (s.setRing c r) := by
  intro d j
  rw [State.slot, State.setRing_ring]
  split
  next here =>
    subst here
    rw [slots, PerSlot.get_set]
    split
    next same =>
      subst same
      exact ⟨pins, fun pinned state => ready.elim (absurd state) (·.resolve_left pinned.ne')⟩
    next => exact ⟨rfl, fun _ => id⟩
  next => exact ⟨rfl, fun _ => id⟩

theorem setSlot (s : State) {v : Slot} (pins : v.pins = (s.slot c k).pins)
    (ready : (s.slot c k).state ≠ .ready ∨ (s.slot c k).pins = 0 ∨ v.state = .ready) : s.KeepsPins (s.setSlot c k v) :=
  setRing s rfl pins ready

/-! The engine's operations change states of slots to READY alone. -/

theorem startNext (s : State) : s.KeepsPins s.startNext := by
  have taken (e : Engine) : s.KeepsPins (s.setEngine e) := of_rings rfl
  unfold State.startNext
  split
  next => exact (taken _).trans (of_same (State.startJob_slots _ _))
  next => exact refl s

theorem supersede (s : State) (job : Job) : s.KeepsPins (s.supersede job) := by
  have noted (info : Option PhaseInfo) (p : XY (Option Int)) := of_same (s.phaseWrites_slots job info p)
  have unmeasured (t : State) (sh : XY Int) :
      t.KeepsPins (t.setSlot job.cam job.slot ((t.slot job.cam job.slot).unmeasured sh)) := setSlot t rfl (.inr (.inr rfl))
  exact ((noted _ _).trans (unmeasured _ _)).trans (of_same (.setRing _ _ rfl rfl))

theorem withdraw (s : State) (c : CamId) : s.KeepsPins (s.withdraw c) := by
  unfold State.withdraw
  split
  next => exact refl s
  next => exact (of_rings rfl).trans (supersede _ _)

theorem handOff (s : State) (job : Job) : s.KeepsPins (s.handOff job) :=
  ((withdraw s job.cam).trans (of_rings rfl)).trans (startNext _)

theorem completeJob (s : State) : s.KeepsPins s.completeJob := by
  unfold State.completeJob
  split
  next => exact refl s
  next j _ =>
    split
    next => exact (of_rings rfl).trans (startNext _)
    next r _ =>
      have registered (t : State) (rings : t.rings = s.rings) (meas : XY AxisMeas) (sh : XY Int) :
          s.KeepsPins (t.setSlot j.job.cam j.job.slot ((s.slot j.job.cam j.job.slot).registered r meas sh)) := by
        refine (of_rings rings).trans (setSlot t ?_ (.inr (.inr rfl)))
        rw [State.slot, State.slot, State.ring, State.ring, rings]
        rfl
      exact ((registered _ rfl _ _).trans (of_rings rfl)).trans (startNext _)

/-! The store frees the slot being filled, or moves it on (R58–R60, R63). -/

/-- A slot that was being filled is freed. -/
theorem free (s : State) {r : Ring} (filling : (s.slot c k).state = .filling) (slots : r.slots = ((s.ring c).free k).slots) :
    s.KeepsPins (s.setRing c r) :=
  setRing s (v := (s.slot c k).freed) slots rfl (.inl (by rw [filling]; decide))

theorem wellFormedEnd (s : State) (filling : (s.slot c k).state = .filling) (n : Nat) :
    s.KeepsPins (s.wellFormedEnd c k n) := by
  unfold State.wellFormedEnd
  dsimp only
  have screened (sc : Screen) : s.KeepsPins (s.setScreen c sc) := of_rings rfl
  split
  next => exact (screened _).trans (free _ filling rfl)
  next v _ =>
    have scored (t : State) (filling : (t.slot c k).state = .filling) :
        t.KeepsPins (t.setSlot c k ((t.slot c k).scored n v)) := setSlot t rfl (.inl (by rw [filling]; decide))
    have counted (t : State) : t.KeepsPins (t.setRing c ((t.ring c).countVerdict v)) :=
      of_same (.setRing _ _ (by cases v <;> rfl) (by cases v <;> rfl))
    exact (((screened _).trans (scored _ filling)).trans (counted _)).trans (handOff _ _)

theorem storeFrameEnd (s : State) (c : CamId) (wellFormed : Bool) (n : Nat) :
    s.KeepsPins (s.storeFrameEnd c wellFormed n) := by
  unfold State.storeFrameEnd
  split
  next => exact refl s
  next k found =>
    have filling : (s.slot c k).state = .filling := Ring.filling?_state found
    split
    next => exact wellFormedEnd s filling n
    next => exact free s filling rfl

theorem linkDown (s : State) (c : CamId) : s.KeepsPins (s.linkDown c) := by
  refine KeepsPins.trans (t := s.storeLinkDown c) ?_ (of_rings rfl)
  unfold State.storeLinkDown
  split
  next => exact refl s
  next k found => exact free s (Ring.filling?_state found) rfl

/-- The slot a frame start gets was not READY or had no pin. -/
theorem fillSlot (s : State) (slot : (s.ring c).allocate? = some k) : s.KeepsPins (s.fillSlot c k) := by
  refine setRing s rfl rfl ?_
  rcases Ring.allocate?_spec slot with free | ⟨-, unpinned⟩
  · exact .inl (by rw [State.slot, free]; decide)
  · exact .inr (.inl unpinned)

end State.KeepsPins

theorem State.Pinned.of_keeps {l : List (CamId × Option SlotId)} (h : s.Pinned l) (keeps : s.KeepsPins t) : t.Pinned l :=
  fun c k => by
    obtain ⟨pins, ready⟩ := h c k
    obtain ⟨pins', ready'⟩ := keeps c k
    exact ⟨pins'.trans pins, fun pinned => ready' (pins' ▸ pinned) (ready (pins' ▸ pinned))⟩

/-- A picture's operations leave the holders, and so the pins stay exact (R50, R135). -/
theorem State.PinsOk.picture (h : s.PinsOk) (keeps : s.KeepsPins t) (frame : s.PictureFrame t) : t.PinsOk := by
  obtain ⟨pinned, windows, sources⟩ := State.pinsOk_iff.mp h
  have output (o : OutId) : t.output o = s.output o := by rw [State.output, frame.outputs, State.output]
  refine State.pinsOk_iff.mpr ⟨?_, fun o => output o ▸ windows o, frame.stillUnit ▸ sources⟩
  rw [State.pinHolders, output, output, frame.stillUnit]
  exact pinned.of_keeps keeps

/-! ### Moves -/

theorem State.PinsOk.of_same (h : s.PinsOk) (same : s.SameStore t) : t.PinsOk := by
  obtain ⟨pinned, windows, sources⟩ := State.pinsOk_iff.mp h
  refine State.pinsOk_iff.mpr ⟨?_, fun o => ⟨?_, ?_⟩, ?_⟩
  · rw [State.pinHolders, same.win1, same.win2, same.win1, same.win2, same.running]
    exact pinned.of_keeps (.of_same same.toSameSlots)
  · rw [same.win1, same.win2]
    exact (windows o).apart
  · rw [same.win2, same.shown]
    exact (windows o).second
  · rw [StillUnit.Holds, same.running]
    exact sources

/-- With everything cleared there is no holder and no pin. -/
theorem State.Cleared.pinsOk (h : s.Cleared) : s.PinsOk := by
  refine State.pinsOk_iff.mpr ⟨fun c k => ?_, fun o => ?_, fun r w v running => ?_⟩
  · obtain ⟨-, unpinned, -⟩ := h.slots c k
    simp [unpinned, State.pinHolders, h.windows, h.running, holdersOf]
  · obtain ⟨first, second⟩ := h.windows o
    exact ⟨by simp [first], by simp [second]⟩
  · rw [h.running] at running
    cases running

/-- Every move keeps the pins exact. -/
theorem State.PinsOk.moves (h : s.PinsOk) (moves : s.Moves t) : t.PinsOk := by
  have link {t : State} (c : CamId) (l : Link) (ok : t.PinsOk) : (t.setLink c l).PinsOk :=
    ok.picture (.of_rings rfl) ((State.PictureFrame.refl t).setLink c l)
  induction moves with
  | refl => exact h
  | same _ same ok => exact ok.of_same same
  | train _ c l _ _ ok => exact link c l ok
  | unstored _ c l _ _ _ ok => exact link c l ok
  | @drop t _ c l _ ok => exact link c l (ok.picture (.linkDown t c) ((State.PictureFrame.refl t).linkDown c))
  | @fill t _ c k l _ slot _ _ ok =>
    exact link c l (ok.picture (.fillSlot t slot) ((State.PictureFrame.refl t).fillSlot c k))
  | frameEnd _ c _ l wellFormed n _ _ ok =>
    exact (link c l ok).picture (.storeFrameEnd _ c wellFormed n) ((State.PictureFrame.refl _).storeFrameEnd c wellFormed n)
  | @complete t _ ok => exact ok.picture (.completeJob t) (State.PictureFrame.refl t).completeJob
  | showStill _ o ok => exact ok.showStill o
  | showLive _ o ok => exact ok.showLive o
  | startCopy _ r idle ok => exact ok.startCopy r idle
  | stopCopy _ running ok => exact ok.stopCopy running
  | clear cleared => exact cleared.pinsOk

end

end Sys2Proof.Machine

open Sys2Proof Sys2Proof.Machine

/-- Settles O13: every step is made of moves, and every move keeps the pins exact. -/
theorem pinCountsStayExact : Obligations.PinCountsStayExact := by
  unfold Obligations.PinCountsStayExact
  exact fun _ _ ok e => ok.moves (.step e)

end

section
/-! Registration jobs: their start, hand-off and withdrawal (R60, R61, R85, R87, R89). -/

namespace Sys2Proof.Machine

theorem PerSlot.set_set {α : Type} (v : PerSlot α) (k : SlotId) (a b : α) : (v.set k a).set k b = v.set k b := by
  cases k <;> rfl

/-! ### Slots that hold a record -/

section
variable {s : State} {job : Job} {r : Record}

theorem Slot.mapRecord_of_some {k : Slot} (h : k.record = some r) (f : Record → Record) :
    k.mapRecord f = { k with record := some (f r) } := by
  rw [Slot.mapRecord, h]
  rfl

/-- What a phase event writes: phase and prediction into the record, the phase into the table (R109). -/
theorem State.phaseWrites_of_record (h : (s.slot job.cam job.slot).record = some r) (info : Option PhaseInfo)
    (p : XY (Option Int)) : s.phaseWrites job info p =
      (s.setSlot job.cam job.slot { s.slot job.cam job.slot with record := some (r.withPhase info p) }).setTable job.cam
        { s.table job.cam with lastPhase := info } := by
  rw [State.phaseWrites, Slot.mapRecord_of_some h]
  rfl

/-- What a job whose slot holds a record takes at its start (R89). -/
theorem State.jobTaken_of_record (h : (s.slot job.cam job.slot).record = some r) :
    let info := s.derivePhase job.cam r.snapshot
    let x := s.context job.cam
    let p := s.camParams job.cam
    s.jobTaken job = {
      job := job, phase := info, prediction := s.predict job.cam info, reference := x.reference, refOff := x.refOff
      drift := x.drift, lastS := x.lastS, searchR := ⟨p.searchRx, p.searchRy⟩, matchRatio := p.matchRatio } := by
  rw [State.jobTaken, State.record?, h]
  rfl

/-- A job starts: it writes the phase and the prediction it took, clears the reference-lost mark and runs (R89). -/
theorem State.startJob_of_record (h : (s.slot job.cam job.slot).record = some r) : s.startJob job =
    (((s.setSlot job.cam job.slot { s.slot job.cam job.slot with
      record := some (r.withPhase (s.jobTaken job).phase (s.jobTaken job).prediction) }).setTable job.cam
        { s.table job.cam with lastPhase := (s.jobTaken job).phase }).setContext job.cam
          { s.context job.cam with refLost := false }).setEngine { s.engine with running := some (s.jobTaken job) } := by
  rw [State.startJob, State.phaseWrites_of_record h]
  rfl

theorem State.startNext_of_waiting {rest : List Job} (h : s.engine = ⟨none, job :: rest⟩) :
    s.startNext = (s.setEngine ⟨none, rest⟩).startJob job := by
  rw [State.startNext, h]

theorem State.startNext_of_empty (h : s.engine.queue = []) : s.startNext = s := by
  rw [State.startNext, h]
  split
  next waiting => cases waiting
  next => rfl

theorem State.startNext_of_running {j : RunningJob} (h : s.engine.running = some j) : s.startNext = s := by
  rw [State.startNext, h]

/-! ### Withdrawal (R61, R85) -/

/-- A withdrawn job's slot is READY unmeasured, with the prediction, or last S, as its shift (R61). -/
theorem State.supersede_of_record (h : (s.slot job.cam job.slot).record = some r) :
    let info := s.derivePhase job.cam r.snapshot
    let pred := s.predict job.cam info
    let lastS := (s.context job.cam).lastS
    s.supersede job =
      (s.setRing job.cam { s.ring job.cam with
        superseded := bump (s.ring job.cam).superseded
        slots := (s.ring job.cam).slots.set job.slot { s.slot job.cam job.slot with
          state := .ready
          record := some { r.withPhase info pred with
            meas := some (.same ⟨.notRun, none⟩)
            shift := some ⟨pred.x.getD lastS.x, pred.y.getD lastS.y⟩ } } }).setTable job.cam
        { s.table job.cam with lastPhase := info } := by
  intro info pred lastS
  have phase : s.derivePhase job.cam ((s.record? job.cam job.slot).bind (·.snapshot)) = info := by
    rw [State.record?, h]
    rfl
  rw [State.supersede, phase, State.phaseWrites_of_record h]
  simp only [State.setTable, State.setSlot, State.setRing, State.ring, State.slot, PerCam.set_set, PerCam.get_set,
    PerSlot.set_set, PerSlot.get_set, if_true]
  rfl

/-- With no job of the camera waiting there is nothing to withdraw. -/
theorem State.withdraw_of_none {c : CamId} (h : ∀ q ∈ s.engine.queue, q.cam ≠ c) : s.withdraw c = s := by
  have none : s.engine.queue.find? (fun j => j.cam = c) = none := List.find?_eq_none.mpr (by simpa using h)
  rw [State.withdraw, none]

/-- The camera's one waiting job leaves the queue and is superseded (R85). -/
theorem State.withdraw_of_waiting {running : Option RunningJob} {pre post : List Job}
    (h : s.engine = ⟨running, pre ++ job :: post⟩) (others : ∀ q ∈ pre ++ post, q.cam ≠ job.cam) :
    s.withdraw job.cam = (s.setEngine ⟨running, pre ++ post⟩).supersede job := by
  have before : ∀ q ∈ pre, q.cam ≠ job.cam := fun q mem => others q (List.mem_append_left _ mem)
  have found : (pre ++ job :: post).find? (fun j => j.cam = job.cam) = some job := by
    rw [List.find?_append, List.find?_eq_none.mpr (by simpa using before)]
    simp
  have kept : (pre ++ job :: post).filter (fun j => j.cam ≠ job.cam) = pre ++ post := by
    rw [← List.filter_eq_self.mpr (by simpa using others : ∀ q ∈ pre ++ post, decide (q.cam ≠ job.cam) = true)]
    simp
  rw [State.withdraw, h]
  simp only [found, kept]

end

end Sys2Proof.Machine

open Sys2Proof Sys2Proof.Machine

/-- Settles O25: a started job, a hand-off to an idle and to a busy engine, and a withdrawal, each by what it writes. -/
theorem jobsStartAndWait : Obligations.JobsStartAndWait := by
  unfold Obligations.JobsStartAndWait
  intro s c k r record info pred x p noted tables started
  have starts (queue : List Job) : (s.setEngine ⟨none, queue⟩).startJob ⟨c, k⟩ = started queue := by
    have record' : ((s.setEngine ⟨none, queue⟩).slot c k).record = some r := record
    rw [State.startJob_of_record (job := ⟨c, k⟩) record', State.jobTaken_of_record (job := ⟨c, k⟩) record']
    rfl
  refine ⟨fun rest engine => ?_, fun engine => ⟨?_, ?_⟩, fun j queue new engine others => ?_,
    fun j pre post new engine others => ?_⟩
  · rw [State.startNext_of_waiting engine]
    exact starts rest
  · have nothing : s.withdraw c = s := State.withdraw_of_none (by simp [engine])
    rw [State.handOff, nothing, engine]
    exact starts []
  · exact State.startNext_of_empty (by rw [engine])
  · rw [State.handOff, State.withdraw_of_none (by simpa [engine] using others), engine]
    exact State.startNext_of_running rfl
  · have record' : ((s.setEngine ⟨some j, pre ++ post⟩).slot c k).record = some r := record
    rw [State.handOff, State.withdraw_of_waiting (job := ⟨c, k⟩) engine others,
      State.supersede_of_record (job := ⟨c, k⟩) record']
    exact State.startNext_of_running rfl

end

section
/-! The completion of a registration job: its results, the motion context and the reference (R62, R92–R100, R103, R104). -/

namespace Sys2Proof.Machine

/-! ### Results of an axis (R92, R94, R95, R98) -/

section
variable {j : RunningJob} {k : Slot} {r : Record} {ax : Axis}

/-- An axis has the result REFERENCE exactly when the job holds no reference (R98). -/
theorem RunningJob.measure_reference_iff : (j.measure k r ax).result = .reference ↔ j.reference = none := by
  unfold RunningJob.measure
  split
  next none => exact iff_of_true rfl none
  next ref some =>
    refine iff_of_false ?_ (by rw [some]; simp)
    dsimp only
    unfold axisResult
    split
    next => decide
    next => split <;> decide

/-- The shift is measured on a VALID axis; elsewhere it is the prediction, or 0 without a reference and last S with one. -/
theorem RunningJob.shift_eq {m : AxisMeas} (h : m.result = .reference ↔ j.reference = none) (shift : Nat) :
    j.shift ax shift m =
      if m.result = .valid then
        clamp (j.measured ax (m.d.getD 0) - j.newDrift ax shift (m.d.getD 0)) (-(16 * axisBound ax)) (16 * axisBound ax)
      else if j.reference = none then (j.prediction.get ax).getD 0
      else (j.prediction.get ax).getD (j.lastS.get ax) := by
  unfold RunningJob.shift
  cases result : m.result <;> simp [← h, result]

theorem RunningJob.driftAfter_eq (x : Context) (shift : Nat) (meas : XY AxisMeas) :
    j.driftAfter x shift meas ax =
      if (meas.get ax).result = .valid then j.newDrift ax shift ((meas.get ax).d.getD 0) else x.drift.get ax := by
  unfold RunningJob.driftAfter
  cases (meas.get ax).result <;> rfl

end

/-! ### Run counts and references (R97–R100, R103) -/

section
variable {x : Context} {meas : XY AxisMeas}

theorem bothValid_iff : bothValid meas = true ↔ countAxes meas .valid = 2 := by
  simp only [bothValid, countAxes, Bool.and_eq_true, decide_eq_true_eq]
  split <;> split <;> simp_all

theorem Context.withRuns_eq : x.withRuns meas = { x with
    validRun := if countAxes meas .valid = 2 then min (x.validRun + 1) 250 else x.validRun
    invalidRun := if countAxes meas .valid = 2 then 0 else min (x.invalidRun + 1) 4 } := by
  unfold Context.withRuns
  by_cases both : countAxes meas .valid = 2
  · rw [if_pos (bothValid_iff.mpr both), if_pos both, if_pos both]
  · rw [if_neg (mt bothValid_iff.mp both), if_neg both, if_neg both]

theorem Context.refreshDue_iff {refreshCount : Nat} : x.refreshDue refreshCount = true ↔
    x.refreshPending = true ∨ refreshCount ≤ x.validRun ∨ x.invalidRun = 4 := by
  simp [Context.refreshDue, or_assoc]

/-- A refresh clears the run counts, whatever they were. -/
theorem Context.withRuns_refreshed (profiles : XY (List Nat)) (sh : XY Int) :
    (x.withRuns meas).refreshed profiles sh = x.refreshed profiles sh := by
  rw [Context.withRuns_eq]
  rfl

variable {created : Bool} {refreshCount : Nat} (profiles : XY (List Nat)) (sh : XY Int)

theorem Context.withReference_of_lost (h : x.refLost = true) :
    x.withReference created refreshCount meas profiles sh = x := if_pos h

/-- The frame becomes the reference when the job had none or a refresh is due (R98–R100). -/
theorem Context.withReference_of_due (h : x.refLost = false)
    (due : created = true ∨ (x.withRuns meas).refreshDue refreshCount = true) :
    x.withReference created refreshCount meas profiles sh = x.refreshed profiles sh := by
  rw [Context.withReference, if_neg (by simp [h])]
  split
  next => rfl
  next kept => rw [if_pos (due.resolve_left kept), Context.withRuns_refreshed]

/-- Otherwise the run counts move (R97). -/
theorem Context.withReference_of_not_due (h : x.refLost = false) (kept : created = false)
    (due : ¬(x.withRuns meas).refreshDue refreshCount = true) :
    x.withReference created refreshCount meas profiles sh = x.withRuns meas := by
  rw [Context.withReference, if_neg (by simp [h]), if_neg (by simp [kept]), if_neg due]

end

/-! ### Completion (R96) -/

theorem State.completeJob_of_idle {s : State} (h : s.engine.running = none) : s.completeJob = s := by
  rw [State.completeJob, h]

theorem State.completeJob_of_record {s : State} {j : RunningJob} {r : Record} (running : s.engine.running = some j)
    (record : (s.slot j.job.cam j.job.slot).record = some r) :
    s.completeJob = s.completeWith j (s.slot j.job.cam j.job.slot) r := by
  simp only [State.completeJob, running, State.record?, record]

end Sys2Proof.Machine

open Sys2Proof Sys2Proof.Machine

/-- Settles O26: the results of both axes, then the context by whether the reference was lost, is made new, or stays. -/
theorem jobCompletes : Obligations.JobCompletes := by
  unfold Obligations.JobCompletes
  intro s j r held c k x p detail measure m newDrift sOf meas sh count drift x1 validRun invalidRun refreshed refreshDue done
  have measured : j.measure k r = measure := by
    funext ax
    unfold RunningJob.measure
    dsimp only [measure]
    cases j.reference with
    | none => rfl
    | some ref => cases ax <;> rfl
  have measurement : j.measurement k r = meas := by
    rw [RunningJob.measurement, measured]
    rfl
  have shift (ax : Axis) : j.shift ax p.driftShift (measure ax) = sOf ax :=
    RunningJob.shift_eq (measured ▸ RunningJob.measure_reference_iff) _
  have shifts : j.shifts p.driftShift meas = sh := congrArg₂ XY.mk (shift .x) (shift .y)
  have drifts : XY.ofAxis (j.driftAfter x p.driftShift meas) = ⟨drift .x, drift .y⟩ :=
    congrArg₂ XY.mk (RunningJob.driftAfter_eq ..) (RunningJob.driftAfter_eq ..)
  have results : x.withResults j p.driftShift meas sh = x1 := by
    rw [Context.withResults, drifts]
    rfl
  have runs : x1.withRuns meas = { x1 with validRun := validRun, invalidRun := invalidRun } := Context.withRuns_eq
  have due : (x1.withRuns meas).refreshDue p.refreshCount = true ↔ refreshDue := by
    rw [runs]
    exact Context.refreshDue_iff
  have event : exec .jobCompletion s = .next (takeHead s.completeJob) := event_running held _
  have completes (running : s.engine.running = some j) (record : k.record = some r) {x' : Context}
      (reference : x1.withReference j.reference.isNone p.refreshCount meas k.profiles sh = x') :
      exec .jobCompletion s = .next (takeHead (done x').startNext) := by
    have completed : (s.context c).completed j p meas k.profiles sh = x' := by
      rw [← reference, ← results]
      rfl
    rw [event, State.completeJob_of_record running record, State.completeWith, measurement, shifts, completed]
    rfl
  refine ⟨fun idle => ?_, fun running record => ⟨fun lost => ?_, fun kept new => ?_, fun kept had stays => ?_⟩⟩
  · rw [event, State.completeJob_of_idle idle]
  · exact completes running record (Context.withReference_of_lost _ _ lost)
  · exact completes running record (Context.withReference_of_due _ _ kept (new.imp Option.isNone_iff_eq_none.mpr due.mpr))
  · have refers : j.reference.isNone = false := Bool.eq_false_iff.mpr (mt Option.isNone_iff_eq_none.mp had)
    exact completes running record ((Context.withReference_of_not_due (x := x1) _ _ kept refers (mt due.mp stays)).trans runs)

end

section
/-! The search of the registration engine and the measures it and the quality screen form (R71, R72, R90, R91). -/

namespace Sys2Proof.Machine

/-! ### The order of candidates (R91)

`beats` is the strict part of a linear order: SAD first, then the distance from the centre, then the displacement. Over that
order the fold of `RunningJob.best` is the choice of a least element. -/

/-- A candidate's rank in the search about the centre `c`, compared lexicographically. -/
def rank (c : Int) (p : Int × Nat) : Nat ×ₗ Int ×ₗ Int := toLex (p.2, toLex (|p.1 - c|, p.1))

theorem beats_iff {c : Int} {new old : Int × Nat} : beats c new old = true ↔ rank c new < rank c old := by
  simp [beats, rank, Prod.Lex.toLex_lt_toLex]

theorem rank_le_iff {c : Int} {p q : Int × Nat} : rank c p ≤ rank c q ↔
    p.2 < q.2 ∨ (p.2 = q.2 ∧ (|p.1 - c| < |q.1 - c| ∨ (|p.1 - c| = |q.1 - c| ∧ p.1 ≤ q.1))) := by
  simp [rank, Prod.Lex.toLex_le_toLex]

/-- Keeping the better of two candidates keeps one of them, and none of the two ranks before it. -/
theorem keep_better (c : Int) (new old : Int × Nat) :
    let kept := if beats c new old then new else old
    (kept = new ∨ kept = old) ∧ rank c kept ≤ rank c new ∧ rank c kept ≤ rank c old := by
  dsimp only
  split
  next wins => exact ⟨.inl rfl, le_rfl, (beats_iff.mp wins).le⟩
  next loses => exact ⟨.inr rfl, not_lt.mp (mt beats_iff.mpr loses), le_rfl⟩

/-- The fold over a list of displacements ends at the candidate it began with or at one of the list, and at one of least
rank among them. -/
theorem foldl_keep_better (c : Int) (cand : Int → Int × Nat) (ds : List Int) (start : Int) :
    ∃ b ∈ start :: ds,
      ds.foldl (fun old d => if beats c (cand d) old then cand d else old) (cand start) = cand b ∧
      ∀ d ∈ start :: ds, rank c (cand b) ≤ rank c (cand d) := by
  induction ds generalizing start with
  | nil => exact ⟨start, List.mem_singleton_self _, rfl, fun d mem => by rw [List.mem_singleton.mp mem]⟩
  | cons d ds ih =>
    obtain ⟨kept, leNew, leOld⟩ := keep_better c (cand d) (cand start)
    have ⟨next, mem, keeps⟩ : ∃ e ∈ [d, start], (if beats c (cand d) (cand start) then cand d else cand start) = cand e := by
      simpa using kept
    rw [keeps] at leNew leOld
    obtain ⟨b, member, folds, least⟩ := ih next
    have first : rank c (cand b) ≤ rank c (cand next) := least next List.mem_cons_self
    refine ⟨b, ?_, by rw [List.foldl_cons, keeps, folds], ?_⟩
    · simp only [List.mem_cons, List.not_mem_nil, or_false] at mem member ⊢
      rcases member with rfl | later
      · exact mem.symm.imp_right .inl
      · exact .inr (.inr later)
    · simp only [List.forall_mem_cons] at least ⊢
      exact ⟨first.trans leOld, first.trans leNew, least.2⟩

/-! ### The range and the best displacement (R90, R91) -/

theorem mem_candidates {lo hi d : Int} : d ∈ candidates lo hi ↔ lo ≤ d ∧ d ≤ hi := by
  simp only [candidates, List.mem_map, List.mem_range]
  constructor
  · rintro ⟨i, below, rfl⟩
    omega
  · rintro ⟨above, below⟩
    exact ⟨(d - lo).toNat, by omega, by omega⟩

section
variable (j : RunningJob) (ax : Axis)

theorem RunningJob.centre_in_range : j.lo ax ≤ j.centre ax ∧ j.centre ax ≤ j.hi ax := by
  have bound := axisBound_nonneg ax
  have centre : -axisBound ax ≤ j.centre ax ∧ j.centre ax ≤ axisBound ax := clamp_bounds _ _ _ (by omega)
  unfold RunningJob.lo RunningJob.hi
  omega

/-- The best candidate is in the range, carries its own SAD, and none of the range ranks before it. -/
theorem RunningJob.best_least (frame ref : List Nat) : ∃ b : Int,
    j.best ax frame ref = (b, sad ax frame ref b) ∧ j.lo ax ≤ b ∧ b ≤ j.hi ax ∧
    ∀ d : Int, j.lo ax ≤ d → d ≤ j.hi ax →
      rank (j.centre ax) (b, sad ax frame ref b) ≤ rank (j.centre ax) (d, sad ax frame ref d) := by
  obtain ⟨b, member, best, least⟩ := foldl_keep_better (j.centre ax) (fun d => (d, sad ax frame ref d))
    (candidates (j.lo ax) (j.hi ax)) (j.centre ax)
  have range : j.lo ax ≤ b ∧ b ≤ j.hi ax := by
    rcases List.mem_cons.mp member with rfl | candidate
    · exact j.centre_in_range ax
    · exact mem_candidates.mp candidate
  exact ⟨b, best, range.1, range.2,
    fun d above below => least d (List.mem_cons_of_mem _ (mem_candidates.mpr ⟨above, below⟩))⟩

end

/-! ### The measures as sums (R71, R72, R91) -/

theorem absDiff_cast (a b : Nat) : (absDiff a b : Int) = |(a : Int) - b| := by
  unfold absDiff
  rcases le_total a b with le | ge
  · rw [abs_of_nonpos (by omega)]
    omega
  · rw [abs_of_nonneg (by omega)]
    omega

/-- The sum of differences runs over the positions of the shorter list. -/
theorem sumAbsDiff_eq_sum {as bs : List Nat} (h : as.length ≤ bs.length) :
    (sumAbsDiff as bs : Int) = ∑ i ∈ Finset.range as.length, |(as.getD i 0 : Int) - bs.getD i 0| := by
  induction as generalizing bs with
  | nil => rfl
  | cons a as ih =>
    cases bs with
    | nil => simp at h
    | cons b bs =>
      have rest := ih (Nat.le_of_succ_le_succ h)
      simp only [sumAbsDiff] at rest
      simp only [sumAbsDiff, List.zipWith_cons_cons, List.sum_cons, Nat.cast_add, absDiff_cast, rest, List.length_cons,
        Finset.sum_range_succ', List.getD_cons_succ, List.getD_cons_zero, add_comm]

/-- Windows of `m` and at least `m` entries, from `p` and from `q`, differ by the sum over `m` positions. -/
theorem sumAbsDiff_windows {as bs : List Nat} {p q m n : Nat} (fits : p + m ≤ as.length) (fits' : q + n ≤ bs.length)
    (le : m ≤ n) :
    (sumAbsDiff ((as.drop p).take m) ((bs.drop q).take n) : Int) =
      ∑ i ∈ Finset.range m, |(as.getD (p + i) 0 : Int) - bs.getD (q + i) 0| := by
  have length : ((as.drop p).take m).length = m := by simp; omega
  have length' : ((bs.drop q).take n).length = n := by simp; omega
  rw [sumAbsDiff_eq_sum (by omega), length]
  refine Finset.sum_congr rfl fun i mem => ?_
  have below : i < m := Finset.mem_range.mp mem
  simp [List.getD_eq_getElem?_getD, below, below.trans_le le]

/-- SAD of an axis at a displacement within its bound, for profiles that hold every position it reads (R91). -/
theorem sad_eq_sum {ax : Axis} {frame ref : List Nat} {d : Int} (low : -axisBound ax ≤ d) (high : d ≤ axisBound ax)
    (frameLength : frame.length = 2 * axisFirst ax + axisSpan ax) (refLength : ref.length = frame.length) :
    (sad ax frame ref d : Int) = ∑ p ∈ Finset.Ico (axisFirst ax) (axisFirst ax + axisSpan ax),
      |(frame.getD ((p : Int) + d).toNat 0 : Int) - ref.getD p 0| := by
  have bound : axisBound ax = axisFirst ax := by cases ax <;> rfl
  rw [sad, sumAbsDiff_windows (by omega) (by omega) le_rfl, Finset.sum_Ico_eq_sum_range, Nat.add_sub_cancel_left]
  refine Finset.sum_congr rfl fun i _ => ?_
  have shifted : (axisFirst ax + d).toNat + i = (((axisFirst ax + i : Nat) : Int) + d).toNat := by omega
  rw [shifted]

/-- A detail measure, for a profile that holds every position it reads: one difference fewer than there are positions. -/
theorem detail_eq_sum {ax : Axis} {profile : List Nat} (long : axisFirst ax + axisSpan ax ≤ profile.length) :
    (detail ax profile : Int) = ∑ p ∈ Finset.Ico (axisFirst ax) (axisFirst ax + (axisSpan ax - 1)),
      |(profile.getD (p + 1) 0 : Int) - profile.getD p 0| := by
  have positive : 0 < axisSpan ax := by cases ax <;> decide
  have tail : ((profile.drop (axisFirst ax)).take (axisSpan ax)).tail =
      (profile.drop (axisFirst ax + 1)).take (axisSpan ax - 1) := by
    rw [← List.drop_one, List.drop_take, List.drop_drop]
  rw [detail, tail, sumAbsDiff_windows (by omega) long (Nat.sub_le _ _), Finset.sum_Ico_eq_sum_range,
    Nat.add_sub_cancel_left]
  exact Finset.sum_congr rfl fun i _ => by rw [add_right_comm]

end Sys2Proof.Machine

open Sys2Proof Sys2Proof.Machine

/-- Settles O27: the fold of the search chooses a least candidate, and each measure is a sum over its axis's positions. -/
theorem bestDisplacementsAndMeasures : Obligations.BestDisplacementsAndMeasures := by
  unfold Obligations.BestDisplacementsAndMeasures
  refine ⟨fun j ax frame ref => ?_, fun c ref d length length' low high => ?_, fun c ref d length length' low high => ?_,
    fun k columns rows => ⟨?_, ?_⟩⟩
  · obtain ⟨b, best, above, below, least⟩ := j.best_least ax frame ref
    rw [best]
    exact ⟨⟨rfl, rfl, j.centre_in_range ax⟩, above, below, rfl, fun d lo hi => rank_le_iff.mp (least d lo hi)⟩
  · exact sad_eq_sum (ax := .x) low high length (length'.trans length.symm)
  · exact sad_eq_sum (ax := .y) low high length (length'.trans length.symm)
  · exact detail_eq_sum (ax := .x) (columns ▸ by decide)
  · rw [Slot.q, Nat.cast_add]
    exact congrArg _ (detail_eq_sum (ax := .y) (rows ▸ by decide))

end

section
/-! Learning (R118–R121, R126): what one axis of a completion does to the bin and to the counts, that the two axes of a bin
learn apart, and the whole completion. -/

namespace Sys2Proof.Machine

/-! ### A bin, axis by axis -/

/-- Two bins with the same value and confidence on an axis. -/
structure Bin.SameAt (b b' : Bin) (ax : Axis) : Prop where
  value : b.value.get ax = b'.value.get ax
  conf : b.conf.get ax = b'.conf.get ax

/-- A bin after one axis of a completion, which teaches it only on a VALID axis (R118). -/
def Bin.lesson (b : Bin) (limit shift : Nat) (meas : XY AxisMeas) (sh : XY Int) (ax : Axis) : Bin :=
  if (meas.get ax).result = .valid then b.teach ax limit shift (sh.get ax) else b

section
variable {b b' : Bin} {ax ay : Axis} {limit shift : Nat} {v : Int} {meas : XY AxisMeas} {sh : XY Int}

theorem Bin.outlier_iff : b.outlier ax limit v = true ↔ 8 ≤ b.conf.get ax ∧ (limit : Int) < |v - b.value.get ax| := by
  simp [Bin.outlier]

/-- An outlier lowers the confidence and leaves the value (R119). -/
theorem Bin.teach_of_outlier (h : b.outlier ax limit v = true) :
    b.teach ax limit shift v = { b with conf := b.conf.set ax (b.conf.get ax - 2) } := if_pos h

/-- Otherwise the value is learned and the confidence rises (R120, R121). -/
theorem Bin.teach_of_not_outlier (h : ¬b.outlier ax limit v = true) : b.teach ax limit shift v =
    { value := b.value.set ax (b.learned ax shift v), conf := b.conf.set ax (min (b.conf.get ax + 1) 15) } := if_neg h

theorem Bin.lesson_of_valid (valid : (meas.get ax).result = .valid) :
    b.lesson limit shift meas sh ax = b.teach ax limit shift (sh.get ax) := if_pos valid

theorem Bin.lesson_of_not_valid (other : (meas.get ax).result ≠ .valid) : b.lesson limit shift meas sh ax = b :=
  if_neg other

/-- Teaching an axis leaves the other one. -/
theorem Bin.teach_sameAt_other (other : ay ≠ ax) : (b.teach ax limit shift v).SameAt b ay := by
  by_cases outlier : b.outlier ax limit v = true
  · rw [Bin.teach_of_outlier outlier]
    exact ⟨rfl, by simp [other]⟩
  · rw [Bin.teach_of_not_outlier outlier]
    exact ⟨by simp [other], by simp [other]⟩

theorem Bin.lesson_sameAt_other (other : ay ≠ ax) : (b.lesson limit shift meas sh ax).SameAt b ay := by
  by_cases valid : (meas.get ax).result = .valid
  · rw [Bin.lesson_of_valid valid]
    exact Bin.teach_sameAt_other other
  · rw [Bin.lesson_of_not_valid valid]
    exact ⟨rfl, rfl⟩

theorem Bin.SameAt.outlier (h : b.SameAt b' ax) : b.outlier ax limit v = b'.outlier ax limit v := by
  rw [Bin.outlier, Bin.outlier, h.value, h.conf]

/-- What an axis becomes depends on that axis alone. -/
theorem Bin.SameAt.teach (h : b.SameAt b' ax) : (b.teach ax limit shift v).SameAt (b'.teach ax limit shift v) ax := by
  by_cases outlier : b'.outlier ax limit v = true
  · rw [Bin.teach_of_outlier outlier, Bin.teach_of_outlier (h.outlier.trans outlier)]
    exact ⟨h.value, by simp [h.conf]⟩
  · rw [Bin.teach_of_not_outlier outlier, Bin.teach_of_not_outlier (h.outlier ▸ outlier)]
    exact ⟨by simp [Bin.learned, h.value, h.conf], by simp [h.conf]⟩

theorem Bin.SameAt.lesson (h : b.SameAt b' ax) :
    (b.lesson limit shift meas sh ax).SameAt (b'.lesson limit shift meas sh ax) ax := by
  by_cases valid : (meas.get ax).result = .valid
  · rw [Bin.lesson_of_valid valid, Bin.lesson_of_valid valid]
    exact h.teach
  · rw [Bin.lesson_of_not_valid valid, Bin.lesson_of_not_valid valid]
    exact h

/-- After both lessons an axis is as its own lesson leaves it. -/
theorem Bin.lessons_sameAt (b : Bin) (limit shift : Nat) (meas : XY AxisMeas) (sh : XY Int) (ax : Axis) :
    ((b.lesson limit shift meas sh .x).lesson limit shift meas sh .y).SameAt (b.lesson limit shift meas sh ax) ax := by
  cases ax with
  | x => exact Bin.lesson_sameAt_other (by decide)
  | y => exact (Bin.lesson_sameAt_other (by decide)).lesson

end

/-! ### The table -/

/-- A diagnostic count, one more where `p` holds. -/
def countWhen (p : Prop) [Decidable p] (n : Nat) : Nat := if p then bump n else n

@[simp] theorem countWhen_pos {p : Prop} [Decidable p] (h : p) (n : Nat) : countWhen p n = bump n := if_pos h
@[simp] theorem countWhen_neg {p : Prop} [Decidable p] (h : ¬p) (n : Nat) : countWhen p n = n := if_neg h

/-- A table after its bin `k` is made `b`. -/
def PhaseTable.withBin (t : PhaseTable) (k : Nat) (b : Bin) : PhaseTable := { t with bins := t.bins.set k b }

theorem PhaseTable.bin_withBin_same {t : PhaseTable} {k : Nat} (inside : k < t.bins.length) (b : Bin) :
    (t.withBin k b).bin k = b := by
  simp [PhaseTable.withBin, PhaseTable.bin, inside]

theorem PhaseTable.bin_withBin_other {t : PhaseTable} {k n : Nat} (other : n ≠ k) (b : Bin) :
    (t.withBin k b).bin n = t.bin n := by
  simp [PhaseTable.withBin, PhaseTable.bin, List.getElem?_set_ne other.symm]

theorem PhaseTable.withBin_self (t : PhaseTable) (k : Nat) : t.withBin k (t.bin k) = t := by
  have same : t.bins.set k (t.bin k) = t.bins := by
    rcases lt_or_ge k t.bins.length with inside | outside
    · rw [PhaseTable.bin, List.getD_eq_getElem _ _ inside, List.set_getElem_self]
    · exact List.set_eq_of_length_le outside
  rw [PhaseTable.withBin, same]

theorem PhaseTable.withBin_withBin (t : PhaseTable) (k : Nat) (b b' : Bin) :
    (t.withBin k b).withBin k b' = t.withBin k b' := by
  simp [PhaseTable.withBin]

section
variable (t : PhaseTable) (i : PhaseInfo) (limit shift : Nat) (meas : XY AxisMeas) (sh : XY Int)

/-- One axis of a completion: the lesson of its bin, counted as what it was (R118, R119, R120, R126). -/
theorem PhaseTable.learnAxis_eq (ax : Axis) : t.learnAxis (some i) limit shift meas sh ax =
    { t.withBin i.bn ((t.bin i.bn).lesson limit shift meas sh ax) with
      learnCount :=
        countWhen ((meas.get ax).result = .valid ∧ ¬(t.bin i.bn).outlier ax limit (sh.get ax) = true) t.learnCount
      outlierCount :=
        countWhen ((meas.get ax).result = .valid ∧ (t.bin i.bn).outlier ax limit (sh.get ax) = true) t.outlierCount } := by
  by_cases valid : (meas.get ax).result = .valid
  · rw [Bin.lesson_of_valid valid, PhaseTable.learnAxis, if_pos valid, PhaseTable.teach]
    by_cases outlier : (t.bin i.bn).outlier ax limit (sh.get ax) = true
    · simp [valid, outlier, PhaseTable.withBin]
    · simp [valid, outlier, PhaseTable.withBin]
  · rw [Bin.lesson_of_not_valid valid, PhaseTable.withBin_self, PhaseTable.learnAxis, if_neg valid]
    simp [valid]

/-- A completion: both lessons of its bin, each axis counted by the bin as the completion found it. -/
theorem PhaseTable.learn_eq (inside : i.bn < t.bins.length) : t.learn (some i) limit shift meas sh =
    { t.withBin i.bn (((t.bin i.bn).lesson limit shift meas sh .x).lesson limit shift meas sh .y) with
      learnCount := countWhen ((meas.get .y).result = .valid ∧ ¬(t.bin i.bn).outlier .y limit (sh.get .y) = true)
        (countWhen ((meas.get .x).result = .valid ∧ ¬(t.bin i.bn).outlier .x limit (sh.get .x) = true) t.learnCount)
      outlierCount := countWhen ((meas.get .y).result = .valid ∧ (t.bin i.bn).outlier .y limit (sh.get .y) = true)
        (countWhen ((meas.get .x).result = .valid ∧ (t.bin i.bn).outlier .x limit (sh.get .x) = true) t.outlierCount) } := by
  have afterX : (t.learnAxis (some i) limit shift meas sh .x).bin i.bn = (t.bin i.bn).lesson limit shift meas sh .x := by
    rw [PhaseTable.learnAxis_eq]
    exact PhaseTable.bin_withBin_same inside _
  have outlierY : ((t.bin i.bn).lesson limit shift meas sh .x).outlier .y limit (sh.get .y) =
      (t.bin i.bn).outlier .y limit (sh.get .y) := (Bin.lesson_sameAt_other (by decide)).outlier
  rw [PhaseTable.learn, PhaseTable.learnAxis_eq, afterX, outlierY, PhaseTable.learnAxis_eq]
  simp [PhaseTable.withBin]

end

end Sys2Proof.Machine

open Sys2Proof Sys2Proof.Machine

/-- Settles O28: a completion is the lesson of each axis, the axes of a bin learn apart, and each lesson counts once. -/
theorem tablesLearn : Obligations.TablesLearn := by
  unfold Obligations.TablesLearn
  intro t i limit shift meas sh
  refine ⟨rfl, ?_⟩
  intro length below t' old conf taught outlier
  have inside : i.bn < t.bins.length := length ▸ below
  have learned : t' = _ := PhaseTable.learn_eq t i limit shift meas sh inside
  have outlier_iff (ax : Axis) : (t.bin i.bn).outlier ax limit (sh.get ax) = true ↔ outlier ax := Bin.outlier_iff
  have taughtBin : t'.bin i.bn =
      ((t.bin i.bn).lesson limit shift meas sh .x).lesson limit shift meas sh .y := by
    rw [learned]
    exact PhaseTable.bin_withBin_same inside _
  have own (ax : Axis) : (t'.bin i.bn).SameAt ((t.bin i.bn).lesson limit shift meas sh ax) ax :=
    taughtBin ▸ Bin.lessons_sameAt ..
  refine ⟨fun ax valid out => ?_, fun ax valid within => ?_, fun ax other => ?_, fun n other => ?_, ?_, ?_, ?_, ?_⟩
  · have lesson := (Bin.lesson_of_valid valid).trans (Bin.teach_of_outlier (shift := shift) ((outlier_iff ax).mpr out))
    rw [(own ax).value, (own ax).conf, lesson]
    exact ⟨rfl, by simp [conf]⟩
  · have lesson := (Bin.lesson_of_valid valid).trans
      (Bin.teach_of_not_outlier (shift := shift) (mt (outlier_iff ax).mp within))
    rw [(own ax).value, (own ax).conf, lesson]
    exact ⟨by simp [Bin.learned, old, conf], by simp [conf]⟩
  · rw [(own ax).value, (own ax).conf, Bin.lesson_of_not_valid other]
    exact ⟨rfl, rfl⟩
  · rw [learned]
    exact PhaseTable.bin_withBin_other other _
  · rw [learned]
    exact List.length_set.trans length
  · rw [learned]; rfl
  · rw [learned]; rfl
  · have taught_iff (ax : Axis) : (meas.get ax).result = .valid ↔ taught ax := Iff.rfl
    simp only [learned, taught_iff, outlier_iff]
    refine ⟨fun ⟨tx, ox⟩ ⟨ty, oy⟩ => ?_, fun ⟨tx, ix⟩ ⟨ty, iy⟩ => ?_, ?_, ?_, ?_, fun nx ny => ?_⟩
    · simp [tx, ox, ty, oy]
    · simp [tx, ix, ty, iy]
    · rintro (⟨tx, ox, ty, iy⟩ | ⟨tx, ix, ty, oy⟩)
      · simp [tx, ox, ty, iy]
      · simp [tx, ix, ty, oy]
    · rintro (⟨tx, ix, ny⟩ | ⟨nx, ty, iy⟩)
      · simp [tx, ix, ny]
      · simp [nx, ty, iy]
    · rintro (⟨tx, ox, ny⟩ | ⟨nx, ty, oy⟩)
      · simp [tx, ox, ny]
      · simp [nx, ty, oy]
    · simp [nx, ny]

end

section
/-! The phase of a frame, its bins, and the prediction of an axis (R109–R116). -/

namespace Sys2Proof.Machine

/-! ### The phase (R109–R112) -/

/-- A phase is derived exactly from a snapshot of a RUNNING channel whose period is known, when the bound channel is MODULAR. -/
theorem State.derivePhase_eq_some {s : State} {c : CamId} {snap : Option Snapshot} {i : PhaseInfo} :
    s.derivePhase c snap = some i ↔ ∃ e sn period, (s.camParams c).phaseSource.chan? = some e ∧ snap = some sn ∧
      sn.period = some period ∧ sn.state = .running ∧ (s.chanParams e).mode = .modular ∧
      phaseInfo (s.chanParams e).cpr (phaseAt sn.position
        (leadOf (s.camParams c).exposureDelay (s.chanParams e).cpr period sn.dir) (s.chanParams e).cpr) = i := by
  unfold State.derivePhase
  cases snap with
  | none => simp
  | some sn =>
    cases (s.camParams c).phaseSource.chan? with
    | none => simp
    | some e => cases period : sn.period <;> simp [period, and_assoc]

/-- A phase lies within 0 … CPR−1 whatever the lead (R112). -/
theorem phaseAt_lt {cpr : Nat} (positive : 0 < cpr) (position lead : Int) : phaseAt position lead cpr < cpr := by
  have nonneg := Int.emod_nonneg (position + lead) (b := (cpr : Int)) (by omega)
  have below := Int.emod_lt_of_pos (position + lead) (b := (cpr : Int)) (by omega)
  unfold phaseAt
  omega

/-! ### The bins of a phase (R113, R114) -/

theorem firstBin_lt {cpr phase : Nat} (below : phase < cpr) : phase * 32 / cpr < 32 :=
  Nat.div_lt_of_lt_mul (by omega)

/-- The fraction is the place within the bin in sixteenths: what the division into bins leaves over, times 16. -/
theorem binFraction_eq {cpr : Nat} (positive : 0 < cpr) (phase : Nat) :
    binFraction cpr phase = phase * 32 % cpr * 16 / cpr := by
  have split : phase * 512 = phase * 32 % cpr * 16 + cpr * (16 * (phase * 32 / cpr)) := by
    have := Nat.mod_add_div (phase * 32) cpr
    linarith
  have small : phase * 32 % cpr * 16 / cpr < 16 :=
    Nat.div_lt_of_lt_mul (Nat.mul_lt_mul_of_pos_right (Nat.mod_lt _ positive) (by decide))
  rw [binFraction, split, Nat.add_mul_div_left _ _ positive, Nat.add_mul_mod_self_left, Nat.mod_eq_of_lt small]

theorem binFraction_lt_half {cpr : Nat} (positive : 0 < cpr) (phase : Nat) :
    binFraction cpr phase < 8 ↔ 2 * (phase * 32 % cpr) < cpr := by
  rw [binFraction_eq positive, Nat.div_lt_iff_lt_mul positive]
  omega

/-- Of two naturals, the nearest integer to their quotient goes up from the half on. -/
theorem nearest_natCast {d : Nat} (positive : 0 < d) (n : Nat) :
    nearest n d = (if 2 * (n % d) < d then n / d else n / d + 1 : Nat) := by
  have parts : 2 * n + d = 2 * (n % d) + d + 2 * d * (n / d) := by
    have := Nat.mod_add_div n d
    linarith
  have rest : n % d < d := Nat.mod_lt _ positive
  have quotient : (2 * n + d) / (2 * d) = if 2 * (n % d) < d then n / d else n / d + 1 := by
    rw [parts, Nat.add_mul_div_left _ _ (by omega)]
    split
    next lower => rw [Nat.div_eq_of_lt (by omega), Nat.zero_add]
    next upper => rw [Nat.div_eq_of_lt_le (k := 1) (by omega) (by omega), Nat.add_comm]
  rw [nearest, if_pos (Int.natCast_nonneg n), ← quotient]
  push_cast
  rfl

/-- The nearest bin is b0 below the half of the bin and b1 from there on. -/
theorem nearestBin_eq {cpr phase : Nat} (below : phase < cpr) : (nearest (phase * 32) cpr).toNat % 32 =
    if binFraction cpr phase < 8 then phase * 32 / cpr else (phase * 32 / cpr + 1) % 32 := by
  have positive : 0 < cpr := by omega
  have bin : nearest (phase * 32) cpr = _ := nearest_natCast positive (phase * 32)
  rw [bin, Int.toNat_natCast]
  by_cases lower : binFraction cpr phase < 8
  · rw [if_pos lower, if_pos ((binFraction_lt_half positive phase).mp lower), Nat.mod_eq_of_lt (firstBin_lt below)]
  · rw [if_neg lower, if_neg (mt (binFraction_lt_half positive phase).mpr lower)]

/-! ### The prediction (R115, R116) -/

theorem State.predict_some {s : State} {c : CamId} {e : ChanId} (source : (s.camParams c).phaseSource.chan? = some e)
    (i : PhaseInfo) (ax : Axis) : (s.predict c (some i)).get ax =
      predictAxis ((s.table c).bin i.b0) ((s.table c).bin i.b1) (s.camParams c).minConf
        (binFraction (s.chanParams e).cpr i.phase) ax := by
  simp only [State.predict, XY.get_ofAxis, State.boundCpr, source]

/-- The prediction by which of the two bins are trusted. -/
theorem predictAxis_eq (b0 b1 : Bin) (minConf f : Nat) (ax : Axis) : predictAxis b0 b1 minConf f ax =
    if minConf ≤ b0.conf.get ax then
      if minConf ≤ b1.conf.get ax then some (b0.value.get ax + (b1.value.get ax - b0.value.get ax) * f / 16)
      else some (b0.value.get ax)
    else if minConf ≤ b1.conf.get ax then some (b1.value.get ax) else none := by
  unfold predictAxis Bin.trusted
  by_cases trust0 : minConf ≤ b0.conf.get ax
  · by_cases trust1 : minConf ≤ b1.conf.get ax <;> simp [trust0, trust1]
  · by_cases trust1 : minConf ≤ b1.conf.get ax <;> simp [trust0, trust1]

end Sys2Proof.Machine

open Sys2Proof Sys2Proof.Machine

/-- Settles O29: the phase by what derives it, its bins by the place within the bin, the prediction by the trusted bins. -/
theorem phasesAndPredictions : Obligations.PhasesAndPredictions := by
  unfold Obligations.PhasesAndPredictions
  intro s c snap
  refine ⟨?_, fun lacking => ?_, rfl, ?_⟩
  · intro e sn period source shot known running modular positive cpr lead phase b0 f
    have phase_eq : phaseAt sn.position (leadOf (s.camParams c).exposureDelay cpr period sn.dir) cpr = phase := by
      cases dir : sn.dir <;> simp [phase, lead, phaseAt, leadOf, dir]
    have below : phase < cpr := phase_eq ▸ phaseAt_lt positive _ _
    refine ⟨(nearest (phase * 32) cpr).toNat % 32, ?_, below, firstBin_lt below, rfl, nearestBin_eq below⟩
    exact State.derivePhase_eq_some.mpr
      ⟨e, sn, period, source, shot, known, running, modular, congrArg (phaseInfo cpr) phase_eq⟩
  · refine Option.eq_none_iff_forall_ne_some.mpr fun i derived => ?_
    obtain ⟨e, sn, period, source, rfl, known, running, modular, -⟩ := State.derivePhase_eq_some.mp derived
    rcases lacking with noShot | unbound | ⟨sn', shot, stopped⟩ | ⟨e', source', linear⟩
    · cases noShot
    · rw [unbound] at source
      cases source
    · cases shot
      rcases stopped with stopped | unknown
      · exact stopped running
      · cases known.symm.trans unknown
    · cases source.symm.trans source'
      cases modular.symm.trans linear
  · intro e i ax source bin t0 t1 trust0 trust1 f
    have predicted : (s.predict c (some i)).get ax =
        if trust0 then if trust1 then some (t0 + (t1 - t0) * f / 16) else some t0
        else if trust1 then some t1 else none := (State.predict_some source i ax).trans (predictAxis_eq ..)
    refine ⟨fun h0 h1 => ?_, fun h0 n1 => ?_, fun n0 h1 => ?_, fun n0 n1 => ?_⟩
    · rw [predicted, if_pos h0, if_pos h1]
    · rw [predicted, if_pos h0, if_neg n1]
    · rw [predicted, if_neg n0, if_pos h1]
    · rw [predicted, if_neg n0, if_neg n1]

end

section
/-! Outputs and the still unit on the state: what a frame start, a copy's start and a copy's end change, and the pins that they
take and release (R134, R135, R143, R177–R181). -/

namespace Sys2Proof.Machine

variable {s t : State} {taken released : List (CamId × Option SlotId)}

/-! ### Pins are in the rings (R135) -/

theorem State.releasePin_eq (s : State) (w : Window) : s.releasePin w = { s with rings := (s.releasePin w).rings } := by
  unfold State.releasePin
  split <;> rfl

theorem State.selectFor_eq (s : State) (w : Window) (c : CamId) :
    (s.selectFor w c).1 = { s with rings := (s.selectFor w c).1.rings } := by
  unfold State.selectFor
  split
  · split
    · rfl
    · exact State.releasePin_eq _ w
  · split
    · rfl
    · exact s.releasePin_eq w

/-- Pins taken, or released, one after the other. -/
theorem State.foldl_eq {f : State → WinSource → State} (each : ∀ u w, f u w = { u with rings := (f u w).rings })
    (ws : List WinSource) (s : State) : ws.foldl f s = { s with rings := (ws.foldl f s).rings } := by
  induction ws generalizing s with
  | nil => rfl
  | cons w ws ih =>
    rw [List.foldl_cons, ih, each]

theorem State.pinSources_eq (s : State) (ws : List WinSource) :
    ws.foldl State.pinSource s = { s with rings := (ws.foldl State.pinSource s).rings } :=
  State.foldl_eq (fun u w => by unfold State.pinSource; split <;> rfl) ws s

theorem State.unpinSources_eq (s : State) (ws : List WinSource) :
    ws.foldl State.unpinSource s = { s with rings := (ws.foldl State.unpinSource s).rings } :=
  State.foldl_eq (fun u w => by unfold State.unpinSource; split <;> rfl) ws s

/-! ### Frame starts (R134, R143) -/

/-- The state once both windows of output `o` have let go of their frames. -/
def State.letGo (s : State) (o : OutId) : State := (s.releasePin (s.output o).win1).releasePin (s.output o).win2

theorem State.showStill_eq (s : State) (o : OutId) : s.showStill o = { s with
    rings := (s.letGo o).rings
    outputs := s.outputs.set o { s.output o with
      mode := .still
      win1 := { (s.output o).win1 with slot := none, border := .frozen }
      win2 := { (s.output o).win2 with slot := none, border := .frozen } } } := by
  unfold State.showStill State.letGo
  dsimp only
  rw [State.releasePin_eq, s.releasePin_eq]
  rfl

/-- What a frame start shows live; which windows, the frame starts' own section says. -/
theorem State.showLive_eq (s : State) (o : OutId) : s.showLive o = { s with
    rings := (s.showLive o).rings
    outputs := s.outputs.set o { s.output o with
      mode := .liveView
      shown := (s.output o).viewToShow (s.outParams o)
      win1 := ((s.showLive o).output o).win1
      win2 := ((s.showLive o).output o).win2 } } := by
  unfold State.showLive
  dsimp only
  split
  · rw [State.releasePin_eq, State.selectFor_eq]
    simp only [State.setOutput, State.output, PerOut.get_set, if_true]
  · rw [State.selectFor_eq, State.selectFor_eq]
    simp only [State.setOutput, State.output, PerOut.get_set, if_true]

theorem State.outputFrame_unit (s : State) (o : OutId) : (s.outputFrame o).stillUnit = s.stillUnit := by
  have shown : (s.setUpFrame o).stillUnit = s.stillUnit := by
    unfold State.setUpFrame
    dsimp only
    split
    · rw [State.showStill_eq]; rfl
    · rw [State.showLive_eq]; rfl
  unfold State.outputFrame
  dsimp only
  split <;> exact shown

/-! ### Copies (R177–R181) -/

theorem State.startCopy_eq (s : State) (r : CopyRecord) (src : Sources) : s.startCopy r src = { s with
    rings := (s.startCopy r src).rings
    stillUnit := { s.stillUnit with
      running := some (r, src)
      stills := s.stillUnit.stills.set r.output { s.still r.output with
        valid := false, pixels := [], desc := some (s.describe src) } } } := by
  unfold State.startCopy
  dsimp only
  rw [State.pinSources_eq]
  rfl

theorem State.stopCopy_eq (s : State) (src : Sources) : s.stopCopy src = { s with
    rings := (s.stopCopy src).rings, stillUnit := { s.stillUnit with running := none } } := by
  unfold State.stopCopy
  dsimp only
  rw [State.unpinSources_eq]
  rfl

/-- Which pins a stopping copy releases rests on the rings alone. -/
theorem State.stopCopy_rings (same : t.rings = s.rings) (src : Sources) : (t.stopCopy src).rings = (s.stopCopy src).rings := by
  change (src.windows.foldl State.unpinSource t).rings = (src.windows.foldl State.unpinSource s).rings
  induction src.windows generalizing s t with
  | nil => exact same
  | cons w ws ih =>
    refine ih ?_
    unfold State.unpinSource
    split
    · exact same
    · simp only [State.unpinSlot, State.setSlot, State.slot, State.ring, State.setRing_rings, same]

/-- The state in which the running copy of record `r` has stopped, its still become `v`, and its freeze been answered; the
next copy has not yet started. -/
def State.stopped (s : State) (r : CopyRecord) (src : Sources) (res : Result) (v : Still) : State := { s with
  rings := (s.stopCopy src).rings
  stillUnit := { s.stillUnit with running := none, stills := s.stillUnit.stills.set r.output v }
  mi := s.mi.place (.requestResult r.node (byteOf r.output.num 0) .freeze res) }

/-- The still that a completed copy leaves (R178, R179). -/
def State.copiedStill (s : State) (r : CopyRecord) (src : Sources) : Still := { s.still r.output with
  valid := true
  pixels := s.composeStill src
  desc := (s.still r.output).desc.map (fun d => { d with completed := some s.timebase })
  completed := bump (s.still r.output).completed }

theorem State.completeCopy_eq {r : CopyRecord} {src : Sources} (running : s.stillUnit.running = some (r, src)) :
    s.completeCopy = ((s.stopped r src .frozen (s.copiedStill r src)).setFrozen r.output true).startPending := by
  unfold State.completeCopy
  rw [running]
  dsimp only
  rw [State.stopCopy_eq, State.stopCopy_rings (s := s) (by rfl)]
  rfl

theorem State.completeCopy_idle (idle : s.stillUnit.running = none) : s.completeCopy = s := by
  unfold State.completeCopy
  rw [idle]

section
variable {o : OutId} {r : CopyRecord} {src : Sources} (res : Result) (f : Still → Still)

theorem StillUnit.pendingOf_output {u : StillUnit} (pending : u.pendingOf o = some r) : r.output = o := by
  simpa using List.find?_some pending

theorem StillUnit.runningOf_eq {u : StillUnit} (running : u.running = some (r, src)) : u.runningOf r.output = some (r, src) := by
  simp [StillUnit.runningOf, running]

/-- The end of a pending copy. -/
theorem State.endCopy_pending (pending : s.stillUnit.pendingOf o = some r) : s.endCopy o res f = { s with
    stillUnit := { s.stillUnit with
      waiting := s.stillUnit.waiting.filter (fun q => q.output ≠ o)
      stills := s.stillUnit.stills.set o (f (s.still o)) }
    mi := s.mi.place (.requestResult r.node (byteOf o.num 0) .freeze res) } := by
  unfold State.endCopy
  rw [pending]
  simp only [State.answerFreeze, StillUnit.pendingOf_output pending]
  rfl

/-- The end of a running copy: the next one starts (R176). -/
theorem State.endCopy_running (copies : s.CopiesOk) (running : s.stillUnit.running = some (r, src)) :
    s.endCopy r.output res f = (s.stopped r src res (f (s.still r.output))).startPending := by
  have running' := StillUnit.runningOf_eq running
  have alone : s.stillUnit.pendingOf r.output = none := copies.2.2 r.output (by rw [running']; rfl)
  unfold State.endCopy
  rw [alone, running']
  dsimp only
  rw [State.stopCopy_eq]
  rfl

theorem State.endCopy_clear (clear : s.stillUnit.Clear o) : s.endCopy o res f = s := by
  unfold State.endCopy
  rw [StillUnit.pendingOf_eq_none.mpr clear.1, StillUnit.runningOf_eq_none.mpr clear.2]

end

/-- The pins of a copy's sources taken (R177). -/
theorem State.RepinnedBy.pinSources (h : s.RepinnedBy t taken released) (ws : List WinSource) :
    s.RepinnedBy (ws.foldl State.pinSource t) (ws.map (fun w => (w.cam, w.slot)) ++ taken) released := by
  induction ws generalizing t taken with
  | nil => exact h
  | cons w ws ih =>
    have first : s.RepinnedBy (t.pinSource w) ((w.cam, w.slot) :: taken) released := by
      unfold State.pinSource
      split
      next empty => exact h.congr fun c k => by simp [holdersOf_cons, empty]
      next k held => exact held ▸ h.pin w.cam k
    exact (ih first).congr fun c k => by simp only [List.map_cons, List.cons_append, holdersOf_append, holdersOf_cons]; omega

/-- The pins of a copy's sources released, each of which a slot carries (R179–R181). -/
theorem State.RepinnedBy.unpinSources (h : s.RepinnedBy t taken released) (ws : List WinSource)
    (carried : ∀ c k, holdersOf (ws.map (fun w => (w.cam, w.slot))) c k + holdersOf released c k ≤
      (s.slot c k).pins + holdersOf taken c k) :
    s.RepinnedBy (ws.foldl State.unpinSource t) taken (ws.map (fun w => (w.cam, w.slot)) ++ released) := by
  induction ws generalizing t released with
  | nil => exact h
  | cons w ws ih =>
    simp only [List.map_cons, holdersOf_cons] at carried
    have first : s.RepinnedBy (t.unpinSource w) taken ((w.cam, w.slot) :: released) := by
      unfold State.unpinSource
      split
      next empty => exact h.congr fun c k => by simp [holdersOf_cons, empty]
      next k held =>
        refine held ▸ h.unpin w.cam k (h.pins_pos ?_)
        have pinned := carried w.cam k
        rw [if_pos (by rw [held])] at pinned
        omega
    refine (ih first fun c k => ?_).congr fun c k => ?_
    · have pinned := carried c k
      rw [holdersOf_cons]
      omega
    · simp only [List.map_cons, List.cons_append, holdersOf_append, holdersOf_cons]
      omega

/-- A copy that starts pins each slot that its sources name (R177). -/
theorem State.startCopy_repinned (s : State) (r : CopyRecord) (src : Sources) :
    s.RepinnedBy (s.startCopy r src) (src.windows.map (fun w => (w.cam, w.slot))) [] := by
  have pinned (u : State) := (State.RepinnedBy.refl u).pinSources src.windows
  simp only [List.append_nil] at pinned
  unfold State.startCopy
  exact (pinned _).of_rings (by rfl) rfl

/-- A copy that stops releases the pins of its sources (R179–R181). -/
theorem State.stopCopy_repinned {r : CopyRecord} {src : Sources} (pins : s.PinsOk)
    (running : s.stillUnit.running = some (r, src)) :
    s.RepinnedBy (s.stopCopy src) [] (src.windows.map (fun w => (w.cam, w.slot))) := by
  have released := (State.RepinnedBy.refl s).unpinSources src.windows fun c k => by
    rw [((pins.copied c k).1 : (s.slot c k).pins = _), StillUnit.holders, running, holdersOf_append]
    exact Nat.le_add_right_of_le (Nat.le_add_right _ _)
  rw [List.append_nil] at released
  exact released.of_rings rfl (by rfl)

end Sys2Proof.Machine

end

section
/-! The freeze and the copies stay in order (R143, R175, R176, R182): what each operation of the outputs and of the still unit
makes of a frozen output and of its still, and that every other one leaves both alone. -/

namespace Sys2Proof.Machine

variable {s t : State} {o : OutId}

/-! ### Outputs and their stills (R143, R182) -/

/-- The clauses of `State.FreezeOk` on one compositor; `valid` says whether its still is valid. -/
structure Compositor.FreezeOk (oc : Compositor) (valid : Bool) : Prop where
  backed : oc.frozen = true ∨ oc.mode = .still → valid = true
  empty : oc.mode = .still → oc.win1.slot = none ∧ oc.win2.slot = none

/-- The output neither is frozen nor draws its still. -/
def Compositor.Live (oc : Compositor) : Prop := oc.frozen = false ∧ oc.mode = .liveView

theorem State.freezeOk_iff : s.FreezeOk ↔ ∀ o, (s.output o).FreezeOk (s.still o).valid :=
  forall_congr' fun _ => ⟨fun h => ⟨h.1, h.2⟩, fun h => ⟨h.backed, h.empty⟩⟩

theorem Compositor.Live.freezeOk {oc : Compositor} (h : oc.Live) (valid : Bool) : oc.FreezeOk valid := by
  obtain ⟨unfrozen, live⟩ := h
  constructor <;> simp [unfrozen, live]

theorem Compositor.FreezeOk.validated {oc : Compositor} {valid : Bool} (h : oc.FreezeOk valid) : oc.FreezeOk true :=
  ⟨fun _ => rfl, h.empty⟩

/-- An output that holds a slot to copy is live: a frozen one answers none, and one that draws its still has none (R143,
R144). -/
theorem Compositor.FreezeOk.live_of_held {oc : Compositor} {valid : Bool} (h : oc.FreezeOk valid)
    (held : oc.answer.held = true) : oc.Live := by
  refine ⟨Bool.eq_false_iff.mpr fun frozen => ?_, ?_⟩
  · unfold Compositor.answer at held
    split at held <;> simp [Sources.held, Window.source, frozen] at held
  · cases mode : oc.mode with
    | liveView => rfl
    | still =>
      obtain ⟨first, second⟩ := h.empty mode
      unfold Compositor.answer at held
      split at held <;> simp [Sources.held, Window.source, first, second] at held

namespace State.FreezeOk

/-- Another compositor at one output. -/
theorem setOutput (h : s.FreezeOk) {oc : Compositor} (ok : oc.FreezeOk (s.still o).valid) : (s.setOutput o oc).FreezeOk := by
  refine State.freezeOk_iff.mpr fun q => ?_
  rw [State.setOutput_output, State.setOutput_still]
  split
  next same => exact same ▸ ok
  next => exact State.freezeOk_iff.mp h q

/-- Another still of one output. -/
theorem setStill (h : s.FreezeOk) {v : Still} (ok : (s.output o).FreezeOk v.valid) : (s.setStill o v).FreezeOk := by
  refine State.freezeOk_iff.mpr fun q => ?_
  rw [State.setStill, State.setStillUnit_still, State.setStillUnit_output, PerOut.get_set]
  split
  next same => exact same ▸ ok
  next => exact State.freezeOk_iff.mp h q

/-- Outputs and stills alone matter. -/
theorem of_eq (h : s.FreezeOk) (outputs : t.outputs = s.outputs := by rfl)
    (stills : t.stillUnit.stills = s.stillUnit.stills := by rfl) : t.FreezeOk := by
  intro q
  rw [State.output, outputs, State.still, stills]
  exact h q

/-! ### Frame starts (R129, R143) -/

theorem showStill (h : s.FreezeOk) (valid : (s.still o).valid = true) : (s.showStill o).FreezeOk := by
  rw [State.showStill_eq]
  exact (h.setOutput ⟨fun _ => valid, fun _ => ⟨rfl, rfl⟩⟩).of_eq

theorem showLive (h : s.FreezeOk) (unfrozen : (s.output o).frozen = false) : (s.showLive o).FreezeOk := by
  rw [State.showLive_eq]
  refine of_eq (s := s.setOutput o _) (h.setOutput (Compositor.Live.freezeOk ?_ _)) rfl
  exact ⟨unfrozen, rfl⟩

/-- The still is drawn where the output is frozen, and then it is valid. -/
theorem setUpFrame (h : s.FreezeOk) (o : OutId) : (s.setUpFrame o).FreezeOk := by
  obtain ⟨backed, empty⟩ := State.freezeOk_iff.mp h o
  have timed (n : Nat) : (s.setOutput o
      { (s.output o).nextRaster n with frameStart := s.timebase, blanked := false }).FreezeOk :=
    h.setOutput ⟨backed, empty⟩
  unfold State.setUpFrame
  dsimp only
  split
  next frozen => exact (timed _).showStill (backed (.inl frozen))
  next unfrozen => exact (timed _).showLive (by simpa [Compositor.nextRaster] using unfrozen)

theorem outputFrame (h : s.FreezeOk) (o : OutId) : (s.outputFrame o).FreezeOk := by
  unfold State.outputFrame
  dsimp only
  split
  · exact (h.setUpFrame o).of_eq
  · exact h.setUpFrame o

/-! ### Copies (R176–R181) -/

/-- A copy that starts makes the still of a live output invalid. -/
theorem startCopy (h : s.FreezeOk) {r : CopyRecord} (live : (s.output r.output).Live) (src : Sources) :
    (s.startCopy r src).FreezeOk := by
  rw [State.startCopy_eq]
  exact (h.setStill (live.freezeOk _)).of_eq

/-- A copy starts where its output holds a slot, and so at a live output (R176, R177). -/
theorem startFrom (h : s.FreezeOk) (l : List CopyRecord) : (s.startFrom l).FreezeOk := by
  induction l generalizing s with
  | nil => exact h.of_eq
  | cons r rest ih =>
    unfold State.startFrom
    dsimp only
    split
    next held =>
      have waiting : (s.setStillUnit { s.stillUnit with waiting := rest }).FreezeOk := h.of_eq
      exact waiting.startCopy ((State.freezeOk_iff.mp h r.output).live_of_held held) _
    next => exact ih h.of_eq

theorem startPending (h : s.FreezeOk) : s.startPending.FreezeOk := by
  unfold State.startPending
  split
  · exact h.startFrom _
  · exact h

theorem stopCopy (h : s.FreezeOk) (src : Sources) : (s.stopCopy src).FreezeOk := by
  rw [State.stopCopy_eq]
  exact h.of_eq

/-- The completion of a copy freezes its output on the still that it makes valid (R179). -/
theorem completeCopy (h : s.FreezeOk) : s.completeCopy.FreezeOk := by
  cases running : s.stillUnit.running with
  | none => exact (State.completeCopy_idle running).symm ▸ h
  | some copy =>
    obtain ⟨r, src⟩ := copy
    have output := State.freezeOk_iff.mp h r.output
    have stopped : (s.stopped r src .frozen (s.copiedStill r src)).FreezeOk :=
      (h.setStill (v := s.copiedStill r src) output.validated).of_eq
    have valid : ((s.stopped r src .frozen (s.copiedStill r src)).still r.output).valid = true := by
      simp [State.stopped, State.still, State.copiedStill]
    rw [State.completeCopy_eq running]
    refine startPending (stopped.setOutput ?_)
    exact ⟨fun _ => valid, output.empty⟩

/-- A copy that ends before its completion leaves every still as valid as it was (R180, R181). -/
theorem endCopy (h : s.FreezeOk) (o : OutId) (res : Result) {f : Still → Still} (valid : ∀ v, (f v).valid = v.valid) :
    (s.endCopy o res f).FreezeOk := by
  have counted {u : State} (ok : u.FreezeOk) : (u.setStill o (f (u.still o))).FreezeOk :=
    ok.setStill (by rw [valid]; exact State.freezeOk_iff.mp ok o)
  unfold State.endCopy
  split
  next => exact (counted (h.of_eq (t := s.setStillUnit _))).of_eq
  next r src _ _ => exact startPending ((counted (h.stopCopy src)).of_eq)
  next => exact h

end State.FreezeOk

end Sys2Proof.Machine
end

section
/-! The freeze and the copies through every command: those that reach the outputs do so by a frame start, a grant change, a
FREEZE message, the completion of a copy or a reset. -/

namespace Sys2Proof.Machine

/-- The invariants of the freeze and of the copies together. -/
def State.DisplaysOk (s : State) : Prop := s.FreezeOk ∧ s.CopiesOk

namespace State.DisplaysOk

variable {s t : State}

/-- Outputs and still unit alone matter. -/
theorem aside (h : s.DisplaysOk) (outputs : t.outputs = s.outputs := by rfl)
    (unit : t.stillUnit = s.stillUnit := by rfl) : t.DisplaysOk := by
  refine ⟨h.1.of_eq outputs (congrArg _ unit), ?_⟩
  rw [State.CopiesOk, unit]
  exact h.2

/-- Links, frame store, screen, engine and tables stay apart from the outputs. -/
theorem picture (h : s.DisplaysOk) (frame : s.PictureFrame t) : t.DisplaysOk := h.aside frame.outputs frame.stillUnit

theorem ite (yes : s.DisplaysOk) (no : t.DisplaysOk) (p : Prop) [Decidable p] : State.DisplaysOk (if p then s else t) := by
  split
  · exact yes
  · exact no

theorem foldl {α : Type} {f : State → α → State} (each : ∀ (u : State) (a : α), u.DisplaysOk → (f u a).DisplaysOk)
    (l : List α) (h : s.DisplaysOk) : (l.foldl f s).DisplaysOk := by
  induction l generalizing s with
  | nil => exact h
  | cons a l ih => exact ih (each s a h)

theorem setMi (h : s.DisplaysOk) (v : Interface) : (s.setMi v).DisplaysOk := h.aside
theorem ask (h : s.DisplaysOk) (m : Message) : (s.ask m).DisplaysOk := h.aside
theorem setArbiter (h : s.DisplaysOk) (v : Arbiter) : (s.setArbiter v).DisplaysOk := h.aside
theorem setChannel (h : s.DisplaysOk) (e : ChanId) (v : Channel) : (s.setChannel e v).DisplaysOk := h.aside
theorem setLink (h : s.DisplaysOk) (c : CamId) (v : Link) : (s.setLink c v).DisplaysOk := h.aside

/-! ### Outputs and still unit -/

theorem setFrozen_false (h : s.DisplaysOk) (o : OutId) : (s.setFrozen o false).DisplaysOk := by
  obtain ⟨backed, empty⟩ := State.freezeOk_iff.mp h.1 o
  refine ⟨h.1.setOutput ⟨fun frozen => backed ?_, empty⟩, h.2⟩
  simpa using Or.inr (a := (s.output o).frozen = true) (frozen.resolve_left (by simp))

theorem outputFrame (h : s.DisplaysOk) (o : OutId) : (s.outputFrame o).DisplaysOk := by
  refine ⟨h.1.outputFrame o, ?_⟩
  rw [State.CopiesOk, State.outputFrame_unit]
  exact h.2

theorem completeCopy (h : s.DisplaysOk) : s.completeCopy.DisplaysOk := by
  refine ⟨h.1.completeCopy, ?_⟩
  cases running : s.stillUnit.running with
  | none => exact (State.completeCopy_idle running).symm ▸ h.2
  | some copy =>
    obtain ⟨r, src⟩ := copy
    rw [State.completeCopy_eq running]
    refine (State.startPending_copies ?_ ?_).1
    · exact h.2.2.1
    · exact fun _ _ running => (Option.some_ne_none _ running.symm).elim

theorem cancelCopy (h : s.DisplaysOk) (o : OutId) : (s.cancelCopy o).DisplaysOk :=
  ⟨h.1.endCopy o _ fun _ => rfl, (State.endCopy_copies h.2 o _ _).1⟩
theorem abortCopy (h : s.DisplaysOk) (o : OutId) : (s.abortCopy o).DisplaysOk :=
  ⟨h.1.endCopy o _ fun _ => rfl, (State.endCopy_copies h.2 o _ _).1⟩

/-- The record of a freeze joins the pending list of an output without a copy (R175, R176). -/
theorem freeze (h : s.DisplaysOk) (node : Byte) (k : ReqSlot) (o : OutId) : (s.freeze node k o).DisplaysOk := by
  unfold State.freeze
  dsimp only
  split
  next => exact h.ask _
  next clear =>
    refine ite ?_ (h.ask _) _
    obtain ⟨noneWaits, noneRuns⟩ := StillUnit.busy_eq_false.mp (Bool.eq_false_iff.mpr clear)
    obtain ⟨-, once, apart⟩ := State.copiesOk_iff.mp h.2
    refine ⟨State.FreezeOk.startPending h.1.of_eq, (State.startPending_copies ?_ fun r src running q member => ?_).1⟩
    · rw [State.setStillUnit_stillUnit, List.map_append, List.nodup_append]
      refine ⟨once, List.nodup_singleton _, fun q member p last => ?_⟩
      obtain ⟨r, waits, rfl⟩ := List.mem_map.mp member
      rw [List.map_singleton, List.mem_singleton] at last
      exact last ▸ noneWaits r waits
    · rcases List.mem_append.mp member with waits | last
      · exact apart r src running q waits
      · rw [List.mem_singleton.mp last]
        exact (noneRuns r src running).symm

theorem unfreeze (h : s.DisplaysOk) (node : Byte) (o : OutId) : (s.unfreeze node o).DisplaysOk :=
  ((h.cancelCopy o).ask _).ite (((h.setFrozen_false o).ask _).ite (h.ask _) _) _

/-! ### Arbiter -/

/-- A grant change ends the freeze and aborts the copy (R145, R165). -/
theorem grantChange (h : s.DisplaysOk) (o : OutId) : (s.grantChange o).DisplaysOk :=
  have handed : (s.handGrant o (s.grantedView o)).DisplaysOk := by
    obtain ⟨backed, empty⟩ := State.freezeOk_iff.mp h.1 o
    refine ⟨h.1.setOutput ⟨fun frozen => backed (.inr (frozen.resolve_left nofun)), empty⟩, h.2⟩
  ((handed.abortCopy o).ask _).setArbiter _
theorem grantTo (h : s.DisplaysOk) (o : OutId) (r : Requester) : (s.grantTo o r).DisplaysOk :=
  ((h.setArbiter _).setArbiter _).grantChange o
theorem grantDefault (h : s.DisplaysOk) (o : OutId) : (s.grantDefault o).DisplaysOk := (h.setArbiter _).grantChange o
theorem grantBest (h : s.DisplaysOk) (o : OutId) : (s.grantBest o).DisplaysOk := by
  unfold State.grantBest
  split
  · exact h.grantTo _ _
  · exact h.grantDefault _

theorem afterReceipt (h : s.DisplaysOk) (o : OutId) (r : Requester) (e : Entry) : (s.afterReceipt o r e).DisplaysOk := by
  unfold State.afterReceipt
  split
  · exact h.grantTo _ _
  · exact ((h.grantTo _ _).ite (h.grantBest _) _).ite
      ((h.grantBest _).ite ((h.grantTo _ _).ite (h.setArbiter _) _) _) _
theorem receive (h : s.DisplaysOk) (o : OutId) (r : Requester) (v : View) (p hold : Nat) :
    (s.receive o r v p hold).DisplaysOk := ((h.setArbiter _).setArbiter _).afterReceipt _ _ _
theorem afterExpiry (h : s.DisplaysOk) (o : OutId) (r : Requester) : (s.afterExpiry o r).DisplaysOk := by
  unfold State.afterExpiry
  refine ite ?_ (h.setArbiter _) _
  split
  · exact (h.grantDefault _).grantTo _ _
  · exact h.grantDefault _
theorem remove (h : s.DisplaysOk) (o : OutId) (r : Requester) : (s.remove o r).DisplaysOk := by
  unfold State.remove
  split
  · exact h
  · exact ((h.setArbiter _).grantBest o).ite ((h.setArbiter _).setArbiter _) _
theorem dwellElapsed (h : s.DisplaysOk) (o : OutId) : (s.dwellElapsed o).DisplaysOk := by
  unfold State.dwellElapsed
  split
  · exact h.grantTo _ _
  · exact h.setArbiter _
theorem dwellWritten (h : s.DisplaysOk) (o : OutId) : (s.dwellWritten o).DisplaysOk :=
  (h.dwellElapsed _).ite ((h.setArbiter _).ite h _) _
theorem dropPersistent (h : s.DisplaysOk) (k : ReqSlot) (o : OutId) : (s.dropPersistent k o).DisplaysOk :=
  (h.setArbiter _).ite h _
theorem expire (h : s.DisplaysOk) (k : ReqSlot) : (s.expire k).DisplaysOk :=
  have noted (a : Arbiter) (m : Message) := (((h.dropPersistent k .a).dropPersistent k .b).setArbiter a).ask m
  have onA (a : Arbiter) (m : Message) := ((noted a m).afterExpiry .a (.master k)).ite (noted a m) _
  ((onA _ _).afterExpiry _ _).ite (onA _ _) _
theorem keepaliveWritten (h : s.DisplaysOk) (k : ReqSlot) : (s.keepaliveWritten k).DisplaysOk := by
  unfold State.keepaliveWritten
  split
  · exact h
  · exact (h.expire _).ite h _
theorem lowerEntry (h : s.DisplaysOk) (k : ReqSlot) (p : Nat) (o : OutId) : (s.lowerEntry k p o).DisplaysOk := by
  have lowered (e : Entry) :=
    h.setArbiter { s.arbiter with table := s.arbiter.table.set o ((s.requests o).set (.master k) (some e)) }
  unfold State.lowerEntry
  split
  · exact h
  · exact (((((lowered _).ask _).setArbiter _).ite ((lowered _).grantBest _) _).ite ((lowered _).setArbiter _) _).ite h _
theorem augerCreate (h : s.DisplaysOk) : s.augerCreate.DisplaysOk := h.receive _ _ _ _ _
theorem augerRemove (h : s.DisplaysOk) : s.augerRemove.DisplaysOk := (h.remove _ _).remove _ _

/-! ### Encoder channels -/

theorem changeChannel (h : s.DisplaysOk) (e : ChanId) (ch : Channel) : (s.changeChannel e ch).DisplaysOk :=
  have reported := ((h.setChannel e ch).ask (.encoderReport e)).ite (h.setChannel e ch) _
  have signalled := (reported.augerCreate.ite reported _).ite (reported.augerRemove.ite reported _) _
  signalled.ite reported _
theorem stopChannel (h : s.DisplaysOk) (e : ChanId) : (s.stopChannel e).DisplaysOk := (h.ask _).changeChannel _ _
theorem reboundPosition (h : s.DisplaysOk) (e : ChanId) : (s.reboundPosition e).DisplaysOk := by
  unfold State.reboundPosition
  dsimp only
  split
  · exact h.setChannel _ _
  · exact h
theorem maxPeriodWritten (h : s.DisplaysOk) (e : ChanId) : (s.maxPeriodWritten e).DisplaysOk := by
  unfold State.maxPeriodWritten
  split
  · exact h
  · exact (h.stopChannel _).ite h _

/-! ### Stored writes -/

theorem camWritten (h : s.DisplaysOk) (c : CamId) (p : CamParam) (old new : Int) : (s.camWritten c p old new).DisplaysOk := by
  cases p
  case linkEnable =>
    exact h.ite ((((h.setLink c _).ite h _)).ite (((h.picture ((State.PictureFrame.refl s).linkDown c)).ite h _).setLink c _) _) _
  case tapOverride => exact h.picture ((State.PictureFrame.refl s).forceTapUpdate c)
  case tapGate => exact (h.setLink c _).ite h _
  case holdLimit => exact h.aside
  case phaseSource => exact h.ite (h.picture ((State.PictureFrame.refl s).clearTable c)) _
  all_goals exact h
theorem chanWritten (h : s.DisplaysOk) (e : ChanId) (p : ChanParam) (old new : Int) :
    (s.chanWritten e p old new).DisplaysOk := by
  have rebound := (h.reboundPosition e).ite
    ((h.reboundPosition e).picture ((State.PictureFrame.refl (s.reboundPosition e)).clearBound e)) (old = new)
  cases p
  case enable => exact h.ite ((h.changeChannel _ _).ite (h.changeChannel _ _) _) _
  case mode => exact rebound
  case cpr => exact rebound
  case maxPeriod => exact h.maxPeriodWritten e
  case outThreshold => exact h.changeChannel _ _
  case inThreshold => exact h.changeChannel _ _
  all_goals exact h
theorem outWritten (h : s.DisplaysOk) (o : OutId) (p : OutParam) (old new : Int) : (s.outWritten o p old new).DisplaysOk := by
  have marked : (s.setOutput o { s.output o with patternFresh := true }).DisplaysOk := by
    obtain ⟨backed, empty⟩ := State.freezeOk_iff.mp h.1 o
    exact ⟨h.1.setOutput ⟨backed, empty⟩, h.2⟩
  cases p
  case rasterRate => exact marked.ite h _
  all_goals exact h
theorem written (h : s.DisplaysOk) (id : ParamId) (old new : Int) : (s.written id old new).DisplaysOk := by
  cases id with
  | cam c p => exact h.camWritten c p old new
  | chan e p => exact h.chanWritten e p old new
  | out o p => exact h.outWritten o p old new
  | dwell => exact (h.dwellWritten _).dwellWritten _
  | keepalive => exact foldl (fun _ k g => g.keepaliveWritten k) _ h
  | augerOutput => exact h.ite (h.augerRemove.augerCreate.ite h _) _
  | augerCamera => exact h.ite (h.augerCreate.ite h _) _
  | augerPriority => exact h.ite (h.augerRemove.ite (h.augerCreate.ite h _) _) _
  | nodeCode k => exact h.ite (((h.remove _ _).remove _ _).setArbiter _) _
  | maxPriority k => exact ((h.lowerEntry _ _ _).lowerEntry _ _ _).ite h _
theorem writeParam (h : s.DisplaysOk) (node : Byte) (number : Word) (id : ParamId) (v : Int) :
    (s.writeParam node number id v).DisplaysOk := by
  have params : (s.setParams (s.params.write id (s.params.fit id v))).DisplaysOk := h.aside
  have stored : (s.storeParam id v).DisplaysOk := params.written _ _ _
  unfold State.writeParam
  split
  · exact stored.ask _
  · exact stored.ask _
  · exact h.ask _

/-! ### Commands, resets and the start -/

theorem encoderCommands (h : s.DisplaysOk) (e : ChanId) (bits : Word) : (Machine.encoderCommands e bits s).DisplaysOk :=
  have whenBit {u : State} (g : u.DisplaysOk) (i : Nat) {f : State → State} (each : ∀ v : State, v.DisplaysOk → (f v).DisplaysOk) :
      (Machine.whenBit bits i f u).DisplaysOk := (each u g).ite g _
  whenBit (whenBit (whenBit (whenBit h 0 fun _ g => g.changeChannel e _) 1 fun _ g => g.setChannel _ _) 2
    fun _ g => g.setChannel _ _) 3 fun _ g => g.setChannel _ _

/-- After a soft reset every output is live, and no copy is left (R149, R185). -/
theorem othersReset (s : State) : s.othersReset.DisplaysOk := by
  refine ⟨State.freezeOk_iff.mpr fun o => ?_, fun _ => rfl, List.nodup_nil, fun o some => rfl⟩
  rw [State.othersReset_output]
  exact Compositor.Live.freezeOk ⟨rfl, rfl⟩ _

theorem softReset (s : State) (node : Byte) (underWay : Bool) : (s.softReset node underWay).DisplaysOk :=
  (othersReset _).augerCreate.ite (othersReset _) _

/-- So it is when the part starts (R150, R185). -/
theorem start (l : BootLevels) : (State.start l).DisplaysOk := by
  refine ⟨State.freezeOk_iff.mpr fun o => Compositor.Live.freezeOk ?_ _, fun _ => rfl, List.nodup_nil, fun o some => rfl⟩
  cases o <;> exact ⟨rfl, rfl⟩

theorem powerUp (s : State) (l : BootLevels) : (s.powerUp l).DisplaysOk := (start l).aside

/-! ### Messages -/

theorem takeHead (h : s.DisplaysOk) : (Machine.takeHead s).DisplaysOk := by
  rw [takeHead_rest]
  exact h.setMi _
theorem onReceipt (h : s.DisplaysOk) {f : State → State} (work : ∀ u : State, u.DisplaysOk → (f u).DisplaysOk) :
    (Machine.onReceipt f s).DisplaysOk := (work _ (h.setMi _)).ite h _
theorem fromNode (h : s.DisplaysOk) (node : Byte) {unknown : State → State} {known : ReqSlot → State → State}
    (hu : ∀ u : State, u.DisplaysOk → (unknown u).DisplaysOk)
    (hk : ∀ (k : ReqSlot) (u : State), u.DisplaysOk → (known k u).DisplaysOk) :
    (Machine.fromNode node unknown known s).DisplaysOk := by
  unfold Machine.fromNode
  split
  · exact hu _ h
  · exact hk _ _ (h.setArbiter _)
theorem paramMessage (h : s.DisplaysOk) (node : Byte) (id : ParamId) (value : BitVec 32) :
    (Machine.paramMessage node id value s).DisplaysOk :=
  h.fromNode node (fun _ g => g.ask _) (fun _ _ g => g.writeParam _ _ _ _)
theorem paramReadMessage (h : s.DisplaysOk) (node : Byte) (number : Word) :
    (Machine.paramReadMessage node number s).DisplaysOk := by
  refine h.fromNode node (fun _ g => g.ask _) (fun _ u g => ?_)
  split <;> exact g.ask _
theorem paramWriteMessage (h : s.DisplaysOk) (node : Byte) (number : Word) (value : BitVec 32) :
    (Machine.paramWriteMessage node number value s).DisplaysOk := by
  refine h.fromNode node (fun _ g => g.ask _) (fun _ u g => ?_)
  split
  · exact g.writeParam _ _ _ _
  · exact g.ask _
  · exact g.ask _
theorem commandMessage (h : s.DisplaysOk) (node target : Byte) (bits : Word) (underWay : Bool) :
    (Machine.commandMessage node target bits underWay s).DisplaysOk := by
  refine h.fromNode node (fun _ g => g.ask _) (fun _ u g => ?_)
  split
  next => exact g.ask _
  next target _ =>
    cases target with
    | camera c => exact (g.picture ((State.PictureFrame.refl u).cameraCommands c bits)).ask _
    | encoder e => exact (g.encoderCommands e bits).ask _
    | device => exact (softReset u node underWay).ite (g.ask _) _
theorem freezeMessage (h : s.DisplaysOk) (node output action : Byte) :
    (Machine.freezeMessage node output action s).DisplaysOk := by
  refine h.fromNode node (fun _ g => g.ask _) (fun k u g => ?_)
  split
  · exact g.ask _
  · exact (g.ask _).ite ((g.ask _).ite ((g.freeze _ _ _).ite (g.unfreeze _ _) _) _) _
theorem viewRequestMessage (h : s.DisplaysOk) (node output layout camA camB priority : Byte) (hold : Word) :
    (Machine.viewRequestMessage node output layout camA camB priority hold s).DisplaysOk := by
  refine h.fromNode node (fun _ g => g.ask _) (fun k u g => ?_)
  split
  · exact g.ask _
  · split
    · exact g.ask _
    · exact (g.receive _ _ _ _ _).ask _
theorem viewReleaseMessage (h : s.DisplaysOk) (node output : Byte) : (Machine.viewReleaseMessage node output s).DisplaysOk := by
  refine h.fromNode node (fun _ g => g.ask _) (fun k u g => ?_)
  split
  · exact g.ask _
  · split
    · exact g.ask _
    · exact (g.remove _ _).ask _
theorem keepaliveMessage (h : s.DisplaysOk) (node : Byte) : (Machine.keepaliveMessage node s).DisplaysOk :=
  h.fromNode node (fun _ g => g) (fun _ _ g => g)

/-- A frame, whatever message it carries. -/
theorem takeFrame (h : s.DisplaysOk) (f : CanFrame) : (Machine.takeFrame f s).DisplaysOk := by
  unfold Machine.takeFrame
  split
  next => exact h
  next kind _ =>
    cases kind with
    | viewRequest => exact h.viewRequestMessage _ _ _ _ _ _ _
    | viewRelease => exact h.viewReleaseMessage _ _
    | freeze => exact h.freezeMessage _ _ _
    | paramWrite => exact h.paramWriteMessage _ _ _
    | paramRead => exact h.paramReadMessage _ _
    | command => exact h.commandMessage _ _ _ _
    | keepalive => exact h.keepaliveMessage _

/-! ### Commands of the part -/

theorem event (h : s.DisplaysOk) {f : State → State} (work : ∀ u : State, u.DisplaysOk → (f u).DisplaysOk)
    (e : Machine.event f s = .next t) : t.DisplaysOk := by
  cases hh : s.held
  · rw [event_running hh] at e
    cases e
    exact (work s h).takeHead
  · rw [event_held hh] at e
    cases e
    exact h

/-- A command that stays within the picture frame. -/
theorem pictureEvent (h : s.DisplaysOk) {f : State → State} (work : ∀ u : State, u.PictureFrame (f u))
    (e : Machine.event f s = .next t) : t.DisplaysOk := h.event (fun u g => g.picture (work u)) e

theorem message (h : s.DisplaysOk) {f : State → State} (work : ∀ u : State, u.DisplaysOk → (f u).DisplaysOk)
    (e : Machine.event (Machine.onReceipt f) s = .next t) : t.DisplaysOk :=
  h.event (fun _ g => g.onReceipt work) e

theorem paramRow (h : s.DisplaysOk) {node : Byte} {id : ParamId} {value : BitVec 32}
    (e : Machine.event (Machine.onReceipt (Machine.paramMessage node id value)) s = .next t) : t.DisplaysOk :=
  h.message (fun _ g => g.paramMessage node id value) e

theorem bitRow (h : s.DisplaysOk) {node : Byte} {target : Target} {bits : Word} {i : Nat}
    (e : Machine.event (Machine.onReceipt (Machine.bitCommand node target bits i false)) s = .next t) : t.DisplaysOk :=
  h.message (fun _ g => g.commandMessage node target.byte _ false) e

theorem referenceUnlock (h : s.DisplaysOk) {c : CamId} (e : execReferenceUnlock c s = .next t) : t.DisplaysOk := by
  refine h.pictureEvent (fun u => ?_) e
  split
  · exact (State.PictureFrame.refl u).failAttempt c
  · exact (State.PictureFrame.refl u).leaveLocked c
  all_goals exact .refl u

theorem wordClock (h : s.DisplaysOk) {c : CamId} (e : execWordClock c s = .next t) : t.DisplaysOk := by
  refine h.event (fun u g => ?_) e
  split
  · exact g.setLink _ _
  · exact g.setLink _ _
  all_goals exact g

theorem pixelWord (h : s.DisplaysOk) {c : CamId} {w : Word} (e : execPixelWord c w s = .next t) : t.DisplaysOk := by
  refine h.event (fun u g => ?_) e
  split
  · exact g.setLink _ _
  · exact g.setLink _ _
  all_goals exact g

theorem stopWatchExpiry (h : s.DisplaysOk) {c : ChanId} (e : execStopWatchExpiry c s = .next t) : t.DisplaysOk := by
  refine h.event (fun u g => ?_) e
  split
  · exact g
  · exact (g.stopChannel _).ite g _

theorem timedExpiry (h : s.DisplaysOk) {r : Requester} {o : OutId} (e : execTimedExpiry r o s = .next t) : t.DisplaysOk := by
  refine h.event (fun u g => ?_) e
  split
  · exact g
  · exact (g.remove _ _).ite g _

theorem keepaliveExpiry (h : s.DisplaysOk) {k : ReqSlot} (e : execKeepaliveExpiry k s = .next t) : t.DisplaysOk := by
  refine h.event (fun u g => ?_) e
  split
  · exact g
  · exact (g.expire _).ite g _

theorem encoderTimer (h : s.DisplaysOk) (e : execEncoderTimer s = .next t) : t.DisplaysOk := by
  refine h.event (fun u g => ite ?_ g _) e
  dsimp only
  split
  · exact g.setMi _
  · exact ((g.setMi _).setMi _).ask _

theorem softResetRow (h : s.DisplaysOk) {node : Byte} {bits : Word} {underWay : Bool}
    (e : execSoftReset node bits underWay s = .next t) : t.DisplaysOk :=
  h.event (fun _ g => (g.commandMessage _ _ _ _).ite (g.onReceipt (fun _ g => g.commandMessage _ _ _ _)) _) e

theorem tick (h : s.DisplaysOk) : (Machine.tick s).DisplaysOk := by
  cases hh : s.held
  · rw [tick_of_running hh]
    exact h.aside
  · rw [tick_of_held hh]
    exact h

/-- Every command keeps the freeze and the copies in order. -/
theorem exec (h : s.DisplaysOk) (i : Instr) (e : Machine.exec i s = .next t) : t.DisplaysOk := by
  cases i with
  | powerOn l => cases e; exact powerUp s l
  | resetLine l => cases e; exact powerUp s l
  | resetLineActive => cases e; exact (powerUp s s.pinLevels).aside
  | setupLineChange level => cases e; exact h.aside
  | referenceLock c _ => exact h.event (fun u g => (g.setLink c _).ite g _) e
  | acquireTimeout c => exact h.event (fun u g => (g.picture ((State.PictureFrame.refl u).failAttempt c)).ite g _) e
  | gateEnd c =>
    exact h.event (fun u g => ((g.setLink c _).ite (g.picture ((State.PictureFrame.refl u).failAttempt c)) _).ite g _) e
  | referenceUnlock c => exact h.referenceUnlock e
  | backoffEnd c => exact h.event (fun u g => (g.setLink c _).ite g _) e
  | signalLoss c => exact h.event (fun u g => (g.picture ((State.PictureFrame.refl u).leaveLocked c)).ite g _) e
  | frameStart c n _ =>
    exact h.pictureEvent (fun u => (State.PictureFrame.refl u).marker c 2 fun _ g => (g.setOffered c _).takeFrameStart c n) e
  | lineStart c _ =>
    exact h.pictureEvent (fun u => (State.PictureFrame.refl u).marker c 2 fun _ g =>
      g.whileReceiving c fun k _ g => g.takeLineStart c k _) e
  | pixelWord c w => exact h.pixelWord e
  | lineEnd c w =>
    exact h.pictureEvent (fun u => (State.PictureFrame.refl u).marker c 2 fun _ g =>
      g.whileReceiving c fun k _ g => g.takeLineEnd c k w) e
  | frameEnd c _ =>
    exact h.pictureEvent (fun u => (State.PictureFrame.refl u).marker c 1 fun _ g => (g.setOffered c _).takeFrameEnd c) e
  | wordClock c => exact h.wordClock e
  | jobCompletion => exact h.pictureEvent (fun u => (State.PictureFrame.refl u).completeJob) e
  | quadratureEdge c _ _ => exact h.event (fun u g => (g.setChannel c _).ite (g.changeChannel c _) _) e
  | indexEdge c _ =>
    exact h.event (fun u g => (g.setChannel c _).ite (((g.ask _).ite g _).changeChannel c _) _) e
  | stopWatchExpiry c => exact h.stopWatchExpiry e
  | outputFrameStart o => exact h.event (fun u g => (g.outputFrame o).ite g _) e
  | viewRequest => exact h.message (fun u g => g.viewRequestMessage _ _ _ _ _ _ _) e
  | viewRelease => exact h.message (fun u g => g.viewReleaseMessage _ _) e
  | timedExpiry r o => exact h.timedExpiry e
  | keepaliveExpiry k => exact h.keepaliveExpiry e
  | dwellExpiry o => exact h.event (fun u g => (g.dwellElapsed o).ite g _) e
  | freeze => exact h.message (fun u g => g.freezeMessage _ _ _) e
  | unfreeze => exact h.message (fun u g => g.freezeMessage _ _ _) e
  | copyCompletion => exact h.event (fun _ g => g.completeCopy) e
  | paramWrite => exact h.message (fun u g => g.paramWriteMessage _ _ _) e
  | paramRead => exact h.message (fun u g => g.paramReadMessage _ _) e
  | keepalive => exact h.message (fun u g => g.keepaliveMessage _) e
  | canFrameIgnored f => exact h.message (fun u g => g.takeFrame f) e
  | linkReset => exact h.bitRow e
  | refRefresh => exact h.bitRow e
  | tableClear => exact h.bitRow e
  | forceTapUpdate => exact h.message (fun u g => State.DisplaysOk.commandMessage (g.setLink _ _) _ _ _ _) e
  | clearCounts => exact h.bitRow e
  | clearPosition => exact h.bitRow e
  | armIndex => exact h.bitRow e
  | releaseCapture => exact h.bitRow e
  | clearCountsEncoder => exact h.bitRow e
  | softReset => exact h.softResetRow e
  | command => exact h.message (fun u g => g.commandMessage _ _ _ _) e
  | linkEnable => exact h.paramRow e
  | tapOverride => exact h.message (fun u g => State.DisplaysOk.paramMessage (g.setLink _ _) _ _ _) e
  | tapGate => exact h.message (fun u g => State.DisplaysOk.paramMessage (g.setLink _ _) _ _ _) e
  | holdLimit => exact h.paramRow e
  | phaseSource => exact h.paramRow e
  | enable => exact h.paramRow e
  | mode => exact h.paramRow e
  | cpr => exact h.paramRow e
  | maxPeriod => exact h.paramRow e
  | outThreshold => exact h.paramRow e
  | inThreshold => exact h.paramRow e
  | dwell => exact h.paramRow e
  | keepaliveParamWrite => exact h.paramRow e
  | augerPriority => exact h.paramRow e
  | augerCamera => exact h.paramRow e
  | augerOutput => exact h.paramRow e
  | slotNodeCode => exact h.paramRow e
  | slotMaxPriority => exact h.paramRow e
  | viewStatusTimer => exact h.event (fun u g => (((g.setMi _).ask _).ask _).ite g _) e
  | cameraTimer => exact h.event (fun u g => ((g.setMi _).ask _).ite g _) e
  | encoderTimer => exact h.encoderTimer e
  | frameSent => exact h.event (fun u g => (g.setMi _).ite g _) e
  | transmitError => exact h.event (fun u g => (g.setMi _).ite g _) e
  | receiveError => exact h.event (fun u g => (g.setMi _).ite g _) e
  | busJoin => exact h.event (fun u g => (g.setMi _).ite g _) e
  | busOffRecovery => exact h.event (fun u g => ((g.setMi _).ite (g.setMi _) _).ite g _) e

end State.DisplaysOk

end Sys2Proof.Machine

open Sys2Proof Sys2Proof.Machine

/-- Settles O11: an idle step leaves outputs and still unit, and every command keeps the freeze and the copies in order. -/
theorem frozenOnlyWithValidStill : Obligations.FrozenOnlyWithValidStill := by
  unfold Obligations.FrozenOnlyWithValidStill
  intro s t freeze copies e
  have ok : s.DisplaysOk := ⟨freeze, copies⟩
  cases front : s.pending with
  | nil =>
    rw [step_of_pending_nil front] at e
    cases e
    exact ok.tick
  | cons c rest =>
    rw [step_of_pending_cons front] at e
    have taken : State.DisplaysOk { s with pending := rest } := ok.aside
    exact taken.exec c e

end

section
/-! Output frame starts: the frame each window takes, its crop and border, and the pins that follow (R129, R132, R134–R136,
R138–R141, R143, R146). -/

namespace Sys2Proof.Machine

variable {s t : State} {o : OutId} {c : CamId} {w : Window}

/-! ### What a window reads of the store (R134, R136, R138) -/

theorem Ring.newestReady?_apart (r : Ring) : r.apartFromPins.newestReady? = r.newestReady? := by
  simp [Ring.newestReady?, Ring.apartFromPins]

theorem State.OutputFrame.newestReady? (h : s.OutputFrame t) (c : CamId) :
    (t.ring c).newestReady? = (s.ring c).newestReady? := by
  rw [← Ring.newestReady?_apart, h.rings, Ring.newestReady?_apart]

theorem State.OutputFrame.record? (h : s.OutputFrame t) (c : CamId) (k : SlotId) : t.record? c k = s.record? c k := by
  have apart (r : Ring) : (r.apartFromPins.slots.get k).record = (r.slots.get k).record := by simp [Ring.apartFromPins]
  rw [State.record?, State.record?, State.slot, State.slot, ← apart, h.rings, apart]

theorem State.selectFor_some {k : SlotId} (newest : (s.ring c).newestReady? = some k) :
    (s.selectFor w c).2 = { w with cam := c, slot := some k } := by
  unfold State.selectFor
  rw [newest]
  dsimp only
  split
  next same => obtain ⟨rfl, slot⟩ := same; rw [← slot]
  next => rfl

theorem State.selectFor_none (newest : (s.ring c).newestReady? = none) :
    (s.selectFor w c).2 = if w.cam = c ∧ w.slot.isSome then w else { w with cam := c, slot := none } := by
  unfold State.selectFor
  rw [newest]
  dsimp only
  split <;> rfl

/-- Pins do not matter for what a window selects. -/
theorem State.OutputFrame.selectFor_window (h : s.OutputFrame t) (w : Window) (c : CamId) :
    (t.selectFor w c).2 = (s.selectFor w c).2 := by
  cases newest : (s.ring c).newestReady? with
  | some k => rw [State.selectFor_some newest, State.selectFor_some (by rw [h.newestReady?, newest])]
  | none => rw [State.selectFor_none newest, State.selectFor_none (by rw [h.newestReady?, newest])]

theorem State.OutputFrame.dress (h : s.OutputFrame t) (w : Window) : t.dress w = s.dress w := by
  unfold State.dress
  simp only [h.record?, State.camParams, State.screen, h.params, h.screens, h.timebase]

/-- The window that draws the frame of slot `k`, record `r`, with applied shift `sh` (R136, R138). -/
def State.drawn (s : State) (c : CamId) (k : SlotId) (r : Record) (sh : XY Int) : Window where
  cam := c
  slot := some k
  ox := cropX (s.camParams c).nominalX sh.x
  oy := cropY (s.camParams c).nominalY sh.y
  border := frameBorder r (s.camParams c).staleLimit (s.screen c).rejectedRun s.timebase

theorem State.dress_selectFor_some {k : SlotId} {r : Record} {sh : XY Int} (newest : (s.ring c).newestReady? = some k)
    (record : (s.slot c k).record = some r) (shift : r.shift = some sh) :
    s.dress (s.selectFor w c).2 = s.drawn c k r sh := by
  rw [State.selectFor_some newest]
  simp only [State.dress, State.record?, record, shift, Option.getD_some]
  rfl

/-- A window that changes its camera, or held no slot, finds none to draw (R134, R138). -/
theorem State.dress_selectFor_none (newest : (s.ring c).newestReady? = none) (empty : w.cam ≠ c ∨ w.slot = none) :
    s.dress (s.selectFor w c).2 = { w with cam := c, slot := none, border := .noSignal } := by
  have let_go : ¬(w.cam = c ∧ w.slot.isSome = true) := by
    rcases empty with other | none
    · exact fun held => other held.1
    · simp [none]
  rw [State.selectFor_none newest, if_neg let_go]
  rfl

/-! ### The frame shown live (R132, R134) -/

/-- The view that output `o` shows next. -/
def State.nextView (s : State) (o : OutId) : View := (s.output o).viewToShow (s.outParams o)

theorem State.showLive_output (s : State) (o : OutId) : (s.showLive o).output o = { s.output o with
    mode := .liveView
    shown := s.nextView o
    win1 := ((s.showLive o).output o).win1
    win2 := ((s.showLive o).output o).win2 } := by
  conv_lhs => rw [State.showLive_eq]
  exact (PerOut.get_set _ _ _ _).trans (if_pos rfl)

theorem State.showLive_win1 (s : State) (o : OutId) :
    ((s.showLive o).output o).win1 = s.dress (s.selectFor (s.output o).win1 (s.nextView o).camA).2 := by
  have first := (State.OutputFrame.refl s).selectFor (s.output o).win1 (s.nextView o).camA
  unfold State.showLive
  dsimp only
  rw [State.setOutput_output, if_pos rfl]
  split
  next => exact (first.releasePin _).dress _
  next d _ => exact (first.selectFor _ d).dress _

theorem State.showLive_win2_full (full : (s.nextView o).camB? = none) :
    ((s.showLive o).output o).win2 = { (s.output o).win2 with slot := none } := by
  unfold State.showLive
  simp only [show ((s.output o).viewToShow (s.outParams o)).camB? = none from full, State.setOutput_output, if_true]

theorem State.showLive_win2_split (split : (s.nextView o).camB? = some c) :
    ((s.showLive o).output o).win2 = s.dress (s.selectFor (s.output o).win2 c).2 := by
  have first := (State.OutputFrame.refl s).selectFor (s.output o).win1 (s.nextView o).camA
  unfold State.showLive
  simp only [show ((s.output o).viewToShow (s.outParams o)).camB? = some c from split, State.setOutput_output, if_true]
  rw [← first.selectFor_window]
  exact (first.selectFor _ c).dress _

/-! ### Pins (R135) -/

theorem holdersOf_nil (c : CamId) (k : SlotId) : holdersOf [] c k = 0 := rfl

section
variable (carried : ∀ c k, holdersOf (s.output o).holders c k ≤ (s.slot c k).pins)
include carried

theorem State.first_carried {k : SlotId} (held : (s.output o).win1.slot = some k) :
    0 < (s.slot (s.output o).win1.cam k).pins := by
  have pinned := carried (s.output o).win1.cam k
  rw [Compositor.holders, holdersOf_cons, held, if_pos rfl] at pinned
  omega

/-- The second window's pin is one beside the first's. -/
theorem State.second_carried {k : SlotId} (held : (s.output o).win2.slot = some k) :
    holdersOf [((s.output o).win1.cam, (s.output o).win1.slot)] (s.output o).win2.cam k <
      (s.slot (s.output o).win2.cam k).pins := by
  have pinned := carried (s.output o).win2.cam k
  rw [Compositor.holders, holdersOf_cons, holdersOf_cons, held, if_pos rfl] at pinned
  rw [holdersOf_cons]
  omega

/-- Both windows of a frozen output let go (R143). -/
theorem State.letGo_repinned : s.RepinnedBy (s.letGo o) [] (s.output o).holders := by
  have first := (State.RepinnedBy.refl s).releasePin (s.output o).win1 fun k held => State.first_carried carried held
  refine (first.releasePin (s.output o).win2 fun k held => State.second_carried carried held).congr fun c k => ?_
  simp only [Compositor.holders, holdersOf_cons]
  omega

/-- The pins follow the windows of a live output. -/
theorem State.showLive_repinned : s.RepinnedBy (s.showLive o) ((s.showLive o).output o).holders (s.output o).holders := by
  have first := (State.RepinnedBy.refl s).selectFor (s.output o).win1 (s.nextView o).camA fun k held =>
    State.first_carried carried held
  have second {k : SlotId} (held : (s.output o).win2.slot = some k) (n : Nat) :=
    Nat.lt_add_right n (State.second_carried carried held)
  rw [Compositor.holders, State.showLive_win1, State.dress_cam, State.dress_slot]
  cases shown : (s.nextView o).camB? with
  | none =>
    rw [State.showLive_win2_full shown]
    refine ((first.releasePin (s.output o).win2 fun k held => second held _).congr fun c k => ?_).of_rings rfl ?_
    · simp only [Compositor.holders, holdersOf_cons, holdersOf_nil, Prod.mk.injEq, reduceCtorEq, and_false, if_false]
      omega
    · unfold State.showLive
      simp only [show ((s.output o).viewToShow (s.outParams o)).camB? = none from shown, State.setOutput_rings]
      rfl
  | some d =>
    have window := ((State.OutputFrame.refl s).selectFor (s.output o).win1 (s.nextView o).camA).selectFor_window
      (s.output o).win2 d
    have both := first.selectFor (s.output o).win2 d fun k held => second held _
    rw [State.showLive_win2_split shown, State.dress_cam, State.dress_slot]
    rw [window] at both
    refine (both.congr fun c k => ?_).of_rings rfl ?_
    · simp only [Compositor.holders, holdersOf_cons, holdersOf_nil]
      omega
    · unfold State.showLive
      simp only [show ((s.output o).viewToShow (s.outParams o)).camB? = some d from shown, State.setOutput_rings]
      rfl

end

/-! ### The frame start (R129, R143, R146) -/

/-- The output with its raster timing moved on (R129). -/
def State.timed (s : State) (o : OutId) : Compositor :=
  { (s.output o).nextRaster (s.outParams o).rasterRate with frameStart := s.timebase, blanked := false }

theorem State.setUpFrame_frozen (frozen : (s.output o).frozen = true) :
    s.setUpFrame o = (s.setOutput o (s.timed o)).showStill o := if_pos frozen

theorem State.setUpFrame_live (live : (s.output o).frozen = false) :
    s.setUpFrame o = (s.setOutput o (s.timed o)).showLive o := if_neg (Bool.eq_false_iff.mp live)

theorem State.setUpFrame_eq (s : State) (o : OutId) : s.setUpFrame o = { s with
    rings := (s.setUpFrame o).rings, outputs := s.outputs.set o ((s.setUpFrame o).output o) } := by
  cases frozen : (s.output o).frozen with
  | true =>
    rw [State.setUpFrame_frozen frozen, State.showStill_eq]
    simp [State.setOutput, State.output]
  | false =>
    rw [State.setUpFrame_live frozen, State.showLive_eq]
    simp [State.setOutput, State.output]

/-- The state of a frame start: the frame set up, and a VIEW STATUS where it differs (R146). -/
theorem State.outputFrame_eq (s : State) (o : OutId) : s.outputFrame o = { s.setUpFrame o with
    mi := if (s.output o).differs ((s.setUpFrame o).output o) then s.mi.place (.viewStatus o) else s.mi } := by
  have mi : (s.setUpFrame o).mi = s.mi := by rw [State.setUpFrame_eq]
  unfold State.outputFrame
  dsimp only
  split
  · rw [← mi]; rfl
  · rw [← mi]

/-- A frame start changes its output, pins, and what is asked for. -/
theorem State.outputFrame_rest (s : State) (o : OutId) : s.outputFrame o = { s with
    rings := (s.outputFrame o).rings
    outputs := s.outputs.set o ((s.outputFrame o).output o)
    mi := (s.outputFrame o).mi } := by
  obtain ⟨rs, oc, frame⟩ : ∃ rs oc, s.setUpFrame o = { s with rings := rs, outputs := s.outputs.set o oc } :=
    ⟨_, _, s.setUpFrame_eq o⟩
  rw [State.outputFrame_eq, frame]
  simp [State.output]

theorem Compositor.differs_iff {old new : Compositor} : old.differs new = true ↔
    new.shown ≠ old.shown ∨ new.win1.border ≠ old.win1.border ∨ new.borderB ≠ old.borderB := by
  simp only [Compositor.differs, Bool.or_eq_true, decide_eq_true_eq, or_assoc, ne_comm]

theorem State.setUpFrame_repinned (pins : s.PinsOk) (o : OutId) :
    s.RepinnedBy (s.setUpFrame o) ((s.setUpFrame o).output o).holders (s.output o).holders := by
  have carried (c : CamId) (k : SlotId) : holdersOf (s.output o).holders c k ≤ (s.slot c k).pins := by
    rw [(pins.pinned o c k).1, holdersOf_append]
    exact Nat.le_add_right _ _
  have holders : ((s.setOutput o (s.timed o)).output o).holders = (s.output o).holders := by
    rw [State.setOutput_output, if_pos rfl]; rfl
  have carried' : ∀ c k, holdersOf ((s.setOutput o (s.timed o)).output o).holders c k ≤
      ((s.setOutput o (s.timed o)).slot c k).pins := by
    rw [holders]
    exact carried
  rw [← holders]
  cases frozen : (s.output o).frozen with
  | true =>
    rw [State.setUpFrame_frozen frozen]
    refine ((State.letGo_repinned carried').congr fun c k => ?_).of_rings rfl (by rw [State.showStill_eq])
    rw [State.showStill_eq]
    simp [State.output, Compositor.holders, holdersOf_cons, holdersOf_nil]
  | false =>
    rw [State.setUpFrame_live frozen]
    exact (State.showLive_repinned carried').of_rings rfl rfl

end Sys2Proof.Machine

open Sys2Proof Sys2Proof.Machine

/-- Settles O41: the frame set up by the frozen flag, its windows by what each selects, its pins, and the VIEW STATUS by whether
the frame differs. -/
theorem outputFrameStarts : Obligations.OutputFrameStarts := by
  unfold Obligations.OutputFrameStarts
  intro s o running pins oc rate spacing timed chosen view drawn shows holders
  have starts : exec (.outputFrameStart o) s =
      .next (takeHead (if due oc.rasterStart s.timebase spacing then s.outputFrame o else s)) := event_running running _
  have isDue : due oc.rasterStart s.timebase spacing = true ↔ spacing ≤ (s.timebase - oc.rasterStart).toNat :=
    decide_eq_true_iff
  have same : s.timed o = timed := by
    simp only [State.timed, Compositor.nextRaster, Bool.or_eq_true, decide_eq_true_eq]
    rfl
  have here : (s.setOutput o (s.timed o)).output o = timed := by rw [State.setOutput_output, if_pos rfl, same]
  have next : (s.setOutput o (s.timed o)).nextView o = view := by rw [State.nextView, here]; rfl
  have follows (old : Window) (c : CamId) : shows old
      ((s.setOutput o (s.timed o)).dress ((s.setOutput o (s.timed o)).selectFor old c).2) c :=
    ⟨fun k r sh newest record shift => State.dress_selectFor_some newest record shift,
      fun newest empty => State.dress_selectFor_none newest empty⟩
  have output : (s.outputFrame o).output o = (s.setUpFrame o).output o := by rw [State.outputFrame_eq]; rfl
  refine ⟨fun early => ?_, fun late => ⟨s.outputFrame o, ?_, ?_, ?_, fun frozen => ?_, fun live => ?_, ?_, ?_⟩⟩
  · rw [starts, if_neg (mt isDue.mp (Nat.not_le.mpr early))]
  · rw [starts, if_pos (isDue.mpr late)]
  · exact s.outputFrame_rest o
  · rw [State.outputFrame_eq]
    exact (s.setUpFrame_repinned pins o).of_rings rfl rfl
  · rw [output, State.setUpFrame_frozen frozen, State.showStill_eq, here]
    exact (PerOut.get_set _ _ _ _).trans (if_pos rfl)
  · rw [output, State.setUpFrame_live live]
    refine ⟨?_, fun c full => ?_, fun a b split => ?_⟩
    · refine (State.showLive_output _ o).trans ?_
      rw [here, next]
    · rw [State.showLive_win1, State.showLive_win2_full (by rw [next, full]; rfl), next, full, here]
      exact ⟨follows _ c, rfl⟩
    · rw [State.showLive_win1, State.showLive_win2_split (by rw [next, split]; rfl), next, split, here]
      exact ⟨follows _ a, follows _ b⟩
  · rw [output, State.outputFrame_eq]
    intro shown border borderB
    refine if_neg (mt Compositor.differs_iff.mp ?_)
    simp only [ne_eq, not_or, not_not]
    exact ⟨shown, border, borderB⟩
  · rw [output, State.outputFrame_eq]
    exact fun differs => if_pos (Compositor.differs_iff.mpr differs)

end

section
/-! The start of a copy: the oldest pending record whose output holds a slot (R144, R176–R178). -/

namespace Sys2Proof.Machine

variable {s : State}

theorem Sources.held_iff {src : Sources} : src.held = true ↔ ¬∀ w ∈ src.windows, w.slot = none := by
  cases src <;> simp [Sources.held, Sources.windows, Option.isSome_iff_ne_none, imp_iff_not_or]

/-- Copies start by the records given: the pending list does not matter. -/
theorem State.startFrom_of_waiting (s : State) (waiting l : List CopyRecord) :
    (s.setStillUnit { s.stillUnit with waiting := waiting }).startFrom l = s.startFrom l := by
  induction l generalizing s with
  | nil => rfl
  | cons r rest ih =>
    unfold State.startFrom
    exact if_congr Iff.rfl rfl (ih (s.answerFreeze r .noFrame))

theorem State.startPending_running (running : s.stillUnit.running.isSome = true) : s.startPending = s := by
  obtain ⟨copy, running⟩ := Option.isSome_iff_exists.mp running
  unfold State.startPending
  rw [running]

section
variable (idle : s.stillUnit.running = none)
include idle

theorem State.startPending_idle : s.startPending = s.startFrom s.stillUnit.waiting := by
  unfold State.startPending
  rw [idle]

theorem State.startPending_empty (empty : s.stillUnit.waiting = []) : s.startPending = s := by
  rw [State.startPending_idle idle, empty, State.startFrom, ← empty]
  rfl

variable {r : CopyRecord} {rest : List CopyRecord} (waiting : s.stillUnit.waiting = r :: rest)
include waiting

/-- The oldest record's output holds no slot: NO_FRAME, and the next (R177). -/
theorem State.startPending_noFrame (held : (s.output r.output).answer.held = false) :
    s.startPending = State.startPending ({ s with stillUnit := { s.stillUnit with waiting := rest } }.ask
      (.requestResult r.node (byteOf r.output.num 0) .freeze .noFrame)) := by
  rw [State.startPending_idle idle, State.startPending_idle (by exact idle), waiting, State.startFrom]
  dsimp only
  rw [held, if_neg Bool.false_ne_true]
  exact ((s.answerFreeze r .noFrame).startFrom_of_waiting rest rest).symm

theorem State.startPending_held (held : (s.output r.output).answer.held = true) :
    s.startPending = (s.setStillUnit { s.stillUnit with waiting := rest }).startCopy r (s.output r.output).answer := by
  rw [State.startPending_idle idle, waiting, State.startFrom]
  dsimp only
  rw [held, if_pos rfl]

end

/-- The sequence number of a source's frame, by its slot's record. -/
theorem State.sourceSeq_eq (s : State) (w : WinSource) :
    s.sourceSeq w = w.slot.bind (fun k => (s.slot w.cam k).record.map (·.seq)) := by
  unfold State.sourceSeq
  cases w.slot <;> rfl

/-- The description of an output's sources (R178). -/
theorem State.describe_answer (s : State) (oc : Compositor) : s.describe oc.answer = ⟨oc.answer,
    s.sourceSeq (oc.win1.source oc.frozen), oc.shown.camB?.bind (fun _ => s.sourceSeq (oc.win2.source oc.frozen)), none⟩ := by
  unfold Compositor.answer
  cases oc.shown <;> rfl

end Sys2Proof.Machine

open Sys2Proof Sys2Proof.Machine

/-- Settles O43, by the copier's state and by whether the oldest record's output holds a slot. -/
theorem copiesStartInOrder : Obligations.CopiesStartInOrder := by
  unfold Obligations.CopiesStartInOrder
  refine fun s => ⟨fun nothing => ?_, fun r rest idle waiting => ?_⟩
  · rcases nothing with running | empty
    · exact State.startPending_running running
    · by_cases running : s.stillUnit.running.isSome = true
      · exact State.startPending_running running
      · exact State.startPending_empty (by simpa using running) empty
  · intro oc source src seq none'
    have answer : oc.answer = src := rfl
    refine ⟨fun none => State.startPending_noFrame idle waiting ?_, fun some => ⟨_, rfl, ?_, ?_⟩⟩
    · exact Bool.eq_false_iff.mpr fun held => Sources.held_iff.mp held none
    · rw [State.startPending_held idle waiting (Sources.held_iff.mpr some), State.startCopy_eq, State.describe_answer]
      simp only [State.sourceSeq_eq]
      rfl
    · rw [State.startPending_held idle waiting (Sources.held_iff.mpr some)]
      exact (State.startCopy_repinned _ r src).of_rings (by rfl) rfl

end

section
/-! FREEZE and UNFREEZE messages (R144, R145, R174, R175, R180). -/

namespace Sys2Proof.Machine

variable {s : State} {node out : Byte} {k : ReqSlot} {o : OutId}

/-- An output's answer holds a slot when the output is not frozen and one of its shown windows has one (R144). -/
theorem Compositor.answer_held_iff {oc : Compositor} : oc.answer.held = true ↔ oc.frozen = false ∧
    (oc.win1.slot.isSome = true ∨ (oc.shown.layout = .split ∧ oc.win2.slot.isSome = true)) := by
  unfold Compositor.answer
  cases oc.shown <;> cases oc.frozen <;> simp [Sources.held, Window.source, View.layout]

/-- A requester reaches an output unless its maximum priority is below the holder's (R174). -/
theorem State.holderPriority_le_iff {n : Nat} :
    s.holderPriority o ≤ n ↔ ∀ e, s.holderEntry? o = some e → e.priority ≤ n := by
  unfold State.holderPriority
  cases s.holderEntry? o <;> simp

theorem StillUnit.busy_of_pending {u : StillUnit} {r : CopyRecord} (pending : u.pendingOf o = some r) : u.busy o = true := by
  rw [StillUnit.busy, pending]
  rfl

theorem StillUnit.busy_of_running {u : StillUnit} {r : CopyRecord} {src : Sources} (running : u.running = some (r, src)) :
    u.busy r.output = true := by
  rw [StillUnit.busy, StillUnit.runningOf_eq running, Bool.or_eq_true]
  exact .inr rfl

/-- What a FREEZE message of a known node to an existing output does. -/
def State.freezeActs (u : State) (node out : Byte) (k : ReqSlot) (o : OutId) (what : What) (act : State) : State :=
  if u.params.maxPriority.get k < u.holderPriority o then u.answer node out what .lowPriority else act

section
variable (hears : s.Hears node k) (known : OutId.ofNat? out.toNat = some o)
include hears known

theorem freezeMessage_known {action : Byte} (valid : action = 0 ∨ action = 1) :
    event (onReceipt (freezeMessage node out action)) s = .next (takeHead ((s.heard k).freezeActs node out k o
      (freezeWhat action) (if action = 1 then (s.heard k).freeze node k o else (s.heard k).unfreeze node o))) := by
  unfold freezeMessage
  rw [message_known hears]
  simp only [known]
  rw [if_neg (by simpa [Decidable.imp_iff_not_or] using valid)]
  rfl

/-- FREEZE asks for action 1. -/
theorem exec_freeze_known : exec (.freeze node out) s =
    .next (takeHead ((s.heard k).freezeActs node out k o .freeze ((s.heard k).freeze node k o))) :=
  freezeMessage_known hears known (.inr rfl)

/-- UNFREEZE asks for action 0. -/
theorem exec_unfreeze_known : exec (.unfreeze node out 0) s =
    .next (takeHead ((s.heard k).freezeActs node out k o .unfreeze ((s.heard k).unfreeze node o))) :=
  freezeMessage_known hears known (.inl rfl)

end

/-! ### What a freeze and an unfreeze come to -/

section
variable (s) (node k)

theorem State.freeze_busy (busy : s.stillUnit.busy o = true) :
    s.freeze node k o = s.ask (.requestResult node (byteOf o.num 0) .freeze .busy) := by
  unfold State.freeze
  rw [if_pos busy]
  rfl

theorem State.freeze_noFrame (clear : s.stillUnit.busy o = false) (empty : ¬(s.output o).answer.held = true) :
    s.freeze node k o = s.ask (.requestResult node (byteOf o.num 0) .freeze .noFrame) := by
  unfold State.freeze
  rw [if_neg (Bool.eq_false_iff.mp clear), if_neg empty]
  rfl

theorem State.freeze_held (clear : s.stillUnit.busy o = false) (held : (s.output o).answer.held = true) :
    s.freeze node k o = State.startPending
      { s with stillUnit := { s.stillUnit with waiting := s.stillUnit.waiting ++ [⟨o, k, node⟩] } } := by
  unfold State.freeze
  rw [if_neg (Bool.eq_false_iff.mp clear), if_pos held]
  rfl

theorem State.unfreeze_busy (busy : s.stillUnit.busy o = true) :
    s.unfreeze node o = (s.cancelCopy o).ask (.requestResult node (byteOf o.num 0) .unfreeze .ok) := by
  unfold State.unfreeze
  rw [if_pos busy]
  rfl

theorem State.unfreeze_frozen (clear : s.stillUnit.busy o = false) (frozen : (s.output o).frozen = true) :
    s.unfreeze node o = (s.setFrozen o false).ask (.requestResult node (byteOf o.num 0) .unfreeze .ok) := by
  unfold State.unfreeze
  rw [if_neg (Bool.eq_false_iff.mp clear), if_pos frozen]
  rfl

theorem State.unfreeze_live (clear : s.stillUnit.busy o = false) (live : (s.output o).frozen = false) :
    s.unfreeze node o = s.ask (.requestResult node (byteOf o.num 0) .unfreeze .notFrozen) := by
  unfold State.unfreeze
  rw [if_neg (Bool.eq_false_iff.mp clear), if_neg (Bool.eq_false_iff.mp live)]
  rfl

end

end Sys2Proof.Machine

open Sys2Proof Sys2Proof.Machine

/-- Settles O44: the message is refused below the holder's priority; else it acts by the output's copy, and without one by its
windows or its frozen flag. -/
theorem freezeMessages : Obligations.FreezeMessages := by
  unfold Obligations.FreezeMessages
  intro s node out k o hears known copies pins u oc reach held told cancelled
  have reached : reach ↔ u.holderPriority o ≤ u.params.maxPriority.get k := (State.holderPriority_le_iff (s := u)).symm
  have acts (may : reach) (what : What) (act : State) : u.freezeActs node out k o what act = act :=
    if_neg (Nat.not_lt.mpr (reached.mp may))
  have refused (may : ¬reach) (what : What) (act : State) :
      u.freezeActs node out k o what act = u.ask (.requestResult node out what .lowPriority) :=
    if_pos (Nat.not_le.mp (mt reached.mpr may))
  rw [exec_freeze_known hears known, exec_unfreeze_known hears known]
  refine ⟨fun may => ⟨?_, ?_⟩, fun may busy => ?_, fun may clear empty => ?_, fun may clear full => ?_,
    fun q may pending => ?_, fun q src may running here => ?_, fun may clear frozen => ?_, fun may clear live => ?_⟩
  · rw [refused may]
  · rw [refused may]
  · rw [acts may, u.freeze_busy node k busy]
  · rw [acts may, u.freeze_noFrame node k clear (mt Compositor.answer_held_iff.mp empty)]
  · rw [acts may, u.freeze_held node k clear (Compositor.answer_held_iff.mpr full)]
    rfl
  · rw [acts may, u.unfreeze_busy node (StillUnit.busy_of_pending pending), State.cancelCopy,
      State.endCopy_pending (s := u) _ _ pending]
    rfl
  · subst here
    refine ⟨u.stopped q src .cancelled cancelled, ?_, rfl, (State.stopCopy_repinned (s := u) pins running).of_rings rfl rfl⟩
    rw [acts may, u.unfreeze_busy node (StillUnit.busy_of_running running), State.cancelCopy,
      State.endCopy_running (s := u) _ _ copies running]
    rfl
  · rw [acts may, u.unfreeze_frozen node clear frozen]
    rfl
  · rw [acts may, u.unfreeze_live node clear live]

end

section
/-! The ends of a copy: its completion, with the pixels of the still that it writes, and the grant change that aborts it (R133,
R145, R165, R178–R181). -/

namespace Sys2Proof.Machine

variable {s : State}

/-! ### The pixels of a completed still (R178) -/

/-- A buffer composed of the rows `f` with the black ones left out reads as `f`. -/
theorem RowStore.read_composed (width : Nat) (f : Nat → List Word) {l : List Nat} {y : Nat} (listed : y ∈ l) :
    RowStore.read ((l.map (fun v => (v, f v))).filter (fun e => decide (e.2 ≠ blackRow width))) width y = f y := by
  by_cases black : f y = blackRow width
  · rw [black]
    refine RowStore.read_absent fun e mem same => ?_
    obtain ⟨row, written⟩ := List.mem_filter.mp mem
    obtain ⟨v, -, rfl⟩ := List.mem_map.mp row
    subst same
    simp [black] at written
  · induction l with
    | nil => cases listed
    | cons v l ih =>
      by_cases here : v = y
      · subst here
        simp [black, RowStore.read]
      · have later := ih (List.mem_of_ne_of_mem (Ne.symm here) listed)
        by_cases empty : f v = blackRow width
        · simpa [empty] using later
        · simpa [empty, RowStore.read, here] using later

/-- The pixel at column `x`, line `y` of a source's window: black without a slot. -/
def State.sourcePixel (s : State) (w : WinSource) (x y : Nat) : Word :=
  w.slot.elim 0x1080#16 (fun k => RowStore.pixel (s.slot w.cam k).pixels 800 (w.ox + x) (w.oy + y))

theorem State.windowLine_length (s : State) (w : WinSource) (skip n v : Nat) : (s.windowLine w skip n v).length = n := by
  unfold State.windowLine
  split <;> simp

theorem State.windowLine_getD (s : State) (w : WinSource) {skip n u : Nat} (v : Nat) (inside : u < n) :
    (s.windowLine w skip n v).getD u Config.black = s.sourcePixel w (skip + u) v := by
  unfold State.windowLine State.sourcePixel
  cases w.slot with
  | none => simp [inside, Config.black]
  | some k => simp [inside, RowStore.pixel, Config.frameWidth, Nat.add_assoc]

theorem State.composeStill_pixel (s : State) (src : Sources) {v : Nat} (inside : v < 416) (u : Nat) :
    RowStore.pixel (s.composeStill src) 704 u v = (s.stillLine src v).getD u Config.black := by
  unfold RowStore.pixel
  exact congrArg (List.getD · u Config.black)
    (RowStore.read_composed 704 (s.stillLine src) (List.mem_range.mpr inside))

theorem State.composeStill_full (s : State) (w : WinSource) {u v : Nat} (column : u < 704) (line : v < 416) :
    RowStore.pixel (s.composeStill (.full w)) 704 u v = s.sourcePixel w u v := by
  rw [State.composeStill_pixel s _ line, State.stillLine, State.windowLine_getD s w v column, Nat.zero_add]

theorem State.composeStill_split (s : State) (w w' : WinSource) {u v : Nat} (column : u < 704) (line : v < 416) :
    RowStore.pixel (s.composeStill (.split w w')) 704 u v =
      if u < 352 then s.sourcePixel w (176 + u) v else s.sourcePixel w' (176 + u - 352) v := by
  rw [State.composeStill_pixel s _ line, State.stillLine]
  split
  next left =>
    rw [List.getD_append _ _ _ _ (by rwa [State.windowLine_length]), State.windowLine_getD s w v left]
  next right =>
    rw [List.getD_append_right _ _ _ _ (by rw [State.windowLine_length]; omega), State.windowLine_length,
      State.windowLine_getD s w' v (by omega), ← Nat.add_sub_assoc (Nat.le_of_not_lt right)]

/-! ### A grant change (R133, R145, R165) -/

theorem State.grantChange_eq (s : State) (o : OutId) : s.grantChange o =
    { ((s.handGrant o (s.grantedView o)).abortCopy o).ask (.viewStatus o) with
      arbiter := { s.arbiter with
        outs := s.arbiter.outs.set o { s.outGrant o with grantCount := bump (s.outGrant o).grantCount } } } := by
  rw [← State.grantChange_arbiter]
  rfl

end Sys2Proof.Machine

open Sys2Proof Sys2Proof.Machine

/-- Settles O45: the completion by whether a copy runs, its pixels by the line of the still they stand on; the grant change by
the output's copy. -/
theorem copiesEnd : Obligations.CopiesEnd := by
  unfold Obligations.CopiesEnd
  refine ⟨fun s running pins => ?_, fun s o copies pins => ?_⟩
  · have completes : exec .copyCompletion s = .next (takeHead s.completeCopy) := event_running running _
    refine ⟨fun idle => ?_, fun r src copying => ?_⟩
    · rw [completes, State.completeCopy_idle idle]
    · refine ⟨(s.stopped r src .frozen (s.copiedStill r src)).setFrozen r.output true, s.composeStill src, ?_, rfl,
        (State.stopCopy_repinned pins copying).of_rings rfl rfl, fun u v column line => ⟨?_, ?_⟩⟩
      · rw [completes, State.completeCopy_eq copying]
      · rintro w rfl
        exact s.composeStill_full w column line
      · rintro w w' rfl
        exact s.composeStill_split w w' column line
  · intro handed counted aborted
    have changes (t : State) (aborts : handed.abortCopy o = t) : s.grantChange o = counted t := by
      rw [State.grantChange_eq, ← aborts]
      rfl
    refine ⟨fun clear => changes _ ?_, fun r pending => changes _ ?_, fun r src running here =>
      ⟨handed.stopped r src .aborted aborted, changes _ ?_, ?_, ?_⟩⟩
    · exact State.endCopy_clear _ _ (StillUnit.busy_eq_false.mp clear)
    · exact State.endCopy_pending (s := handed) _ _ pending
    · subst here
      exact State.endCopy_running (s := handed) _ _ copies running
    · subst here
      rfl
    · subst here
      exact (State.stopCopy_repinned pins running).of_rings rfl (State.stopCopy_rings (by rfl) src)

end

section
/-! Writes of parameters by number: what a number names, the refusals, and what a stored write sets off (R129, R189, R203,
R205). -/

namespace Sys2Proof.Machine

variable {s : State} {node : Byte} {k : ReqSlot} {number : Word} {value : BitVec 32} {id : ParamId}

/-! ### The message by what its number names (R205, steps 1 and 2) -/

section
variable (hears : s.Hears node k)
include hears

theorem exec_paramWrite_unknown (writable : paramOf number.toNat = none)
    (readable : (s.heard k).readOnlyItem number.toNat = none) :
    exec (.paramWrite node number value) s = .next (takeHead ((s.heard k).reply node number .badParam 0)) := by
  refine (message_known hears _ _).trans ?_
  simp only [State.named, writable, readable]

theorem exec_paramWrite_readOnly {v : Int} (writable : paramOf number.toNat = none)
    (readable : (s.heard k).readOnlyItem number.toNat = some v) :
    exec (.paramWrite node number value) s = .next (takeHead ((s.heard k).reply node number .readOnly v)) := by
  refine (message_known hears _ _).trans ?_
  simp only [State.named, writable, readable]

theorem exec_paramWrite_writable (writable : paramOf number.toNat = some id) : exec (.paramWrite node number value) s =
    .next (takeHead ((s.heard k).writeParam node number id value.toInt)) := by
  refine (message_known hears _ _).trans ?_
  simp only [State.named, writable]

end

/-! ### The write of a parameter (R205, steps 3 to 6) -/

section
variable (s) (node) (number)

theorem State.writeParam_locked (guarded : id.guarded = true) (setup : s.setup = false) (v : Int) :
    s.writeParam node number id v = s.reply node number .locked (s.params.read id) := by
  have result : s.writeResult id v = .locked := by simp [State.writeResult, guarded, setup]
  unfold State.writeParam
  rw [result]

theorem State.writeParam_busy (unlocked : id.guarded = true → s.setup = true) (busy : s.refusesBusy id = true) (v : Int) :
    s.writeParam node number id v = s.reply node number .busy (s.params.read id) := by
  have result : s.writeResult id v = .busy := by simpa [State.writeResult, busy] using unlocked
  unfold State.writeParam
  rw [result]

theorem State.writeParam_stored (takes : s.Takes id) (v : Int) : s.writeParam node number id v =
    ((s.stored id v).written id (s.params.read id) (s.params.fit id v)).reply node number
      (if s.params.clampsWrite id v then .clamped else .ok) (s.params.fit id v) := by
  obtain ⟨guard, free⟩ := takes
  have unlocked : (id.guarded && !s.setup) = false := by simpa using guard
  unfold State.writeParam State.writeResult
  rw [unlocked, free, State.storeParam_eq]
  cases s.params.clampsWrite id v <;> rfl

end

/-- The parameters refused while their channel is enabled (R44). -/
theorem State.refusesBusy_of_enabled {e : ChanId} (enabled : (s.chanParams e).enable = true)
    (which : id = .chan e .mode ∨ id = .chan e .edge ∨ id = .chan e .cpr) : s.refusesBusy id = true := by
  rcases which with rfl | rfl | rfl <;> exact enabled

/-! ### Parameters that act at a later use alone, and RASTER_RATE -/

theorem State.camWritten_later {p : CamParam}
    (later : p ∉ [CamParam.linkEnable, .tapOverride, .tapGate, .holdLimit, .phaseSource]) (s : State) (c : CamId)
    (old new : Int) : s.camWritten c p old new = s := by
  revert later
  cases p <;> simp [State.camWritten]

theorem State.chanWritten_later {p : ChanParam}
    (later : p ∉ [ChanParam.enable, .mode, .cpr, .maxPeriod, .outThreshold, .inThreshold]) (s : State) (e : ChanId)
    (old new : Int) : s.chanWritten e p old new = s := by
  revert later
  cases p <;> simp [State.chanWritten]

theorem State.outWritten_later {p : OutParam} (later : p ≠ .rasterRate) (s : State) (o : OutId) (old new : Int) :
    s.outWritten o p old new = s := by
  revert later
  cases p <;> simp [State.outWritten]

/-- A RASTER_RATE changed to 60 has the pattern start afresh (R129; log entry 22). -/
theorem State.outWritten_rasterRate (s : State) (o : OutId) (old : Nat) (new : Int) :
    s.outWritten o .rasterRate old new = { s with
      outputs := if new = 60 ∧ old ≠ 60 then s.outputs.set o { s.output o with patternFresh := true } else s.outputs } := by
  have change : ((old : Int) ≠ new ∧ new = 60) ↔ new = 60 ∧ old ≠ 60 := by omega
  unfold State.outWritten
  dsimp only
  rw [if_congr change rfl rfl]
  split <;> rfl

end Sys2Proof.Machine

open Sys2Proof Sys2Proof.Machine

/-- Settles O52: what the number names, then the guard, the channel's state, and the parameter written. -/
theorem parameterWrites : Obligations.ParameterWrites := by
  unfold Obligations.ParameterWrites
  intro s node k number value hears u replies
  refine ⟨exec_paramWrite_unknown hears, fun v => exec_paramWrite_readOnly hears, fun id writable => ?_⟩
  rw [exec_paramWrite_writable hears writable]
  refine ⟨fun guarded setup => ?_, fun guard ⟨e, enabled, which⟩ => ?_, fun takes => ?_⟩
  · rw [State.writeParam_locked (s.heard k) node number guarded setup]
    rfl
  · rw [State.writeParam_busy (s.heard k) node number guard (State.refusesBusy_of_enabled (s := s.heard k) enabled which)]
    rfl
  · rw [State.writeParam_stored (s.heard k) node number takes]
    refine ⟨rfl, fun later => ?_, fun o rate => ?_⟩
    · have nothing (v : State) (old new : Int) : v.written id old new = v := by
        rcases later with ⟨c, p, rfl, other⟩ | ⟨e, p, rfl, other⟩ | ⟨o, p, rfl, other⟩
        · exact State.camWritten_later other v c old new
        · exact State.chanWritten_later other v e old new
        · exact State.outWritten_later other v o old new
      rw [nothing]
      rfl
    · subst rate
      have marked := State.outWritten_rasterRate (u.stored (.out o .rasterRate) value.toInt) o (s.outParams o).rasterRate
        (s.params.fit (.out o .rasterRate) value.toInt)
      exact congrArg (fun t => replies t _ _) marked

end

section
/-! What a video port sends at each place of its raster (R130, R131, R138, R142, R143, R149). -/

namespace Sys2Proof.Machine

variable {s : State} {o : OutId} {x y : Nat}

theorem inViewArea_iff : inViewArea x y = true ↔ (48 ≤ x ∧ x ≤ 751) ∧ 32 ≤ y ∧ y ≤ 447 := by
  simp [inViewArea, and_assoc]

/-- A pixel's luma stands above its chroma. -/
theorem append_eq_ofNat (luma chroma : Byte) : luma ++ chroma = BitVec.ofNat 16 (256 * luma.toNat + chroma.toNat) := by
  refine BitVec.eq_of_toNat_eq ?_
  rw [BitVec.toNat_append, ← Nat.shiftLeft_add_eq_or_of_lt chroma.isLt, Nat.shiftLeft_eq, BitVec.toNat_ofNat]
  have high := luma.isLt
  have low := chroma.isLt
  omega

/-- The value of a border pixel by the colour of its state (R138). -/
theorem Border.pixel_eq (b : Border) (x : Nat) : b.pixel x =
    BitVec.ofNat 16 (256 * b.colour.1.toNat + if x % 2 = 0 then b.colour.2.1.toNat else b.colour.2.2.toNat) := by
  rw [Border.pixel, append_eq_ofNat, apply_ite BitVec.toNat]

section
variable (running : s.held = false)
include running

theorem State.rasterPixel_border (outside : ¬((48 ≤ x ∧ x ≤ 751) ∧ 32 ≤ y ∧ y ≤ 447)) :
    s.rasterPixel o x y = Border.pixel ((s.output o).borderAt x) x := by
  simp [State.rasterPixel, running, mt inViewArea_iff.mp outside]

theorem State.rasterPixel_view (inside : (48 ≤ x ∧ x ≤ 751) ∧ 32 ≤ y ∧ y ≤ 447) :
    s.rasterPixel o x y = s.viewPixel o x y := by
  simp [State.rasterPixel, running, inViewArea_iff.mpr inside]

end

/-! ### The halves of the border (R142) -/

theorem Compositor.borderAt_full {oc : Compositor} {a : CamId} (full : oc.shown = .full a) (x : Nat) :
    oc.borderAt x = oc.win1.border := by
  rw [Compositor.borderAt, Compositor.borderB, full, ite_self]

theorem Compositor.borderAt_split {oc : Compositor} {a b : CamId} (split : oc.shown = .split a b) (x : Nat) :
    oc.borderAt x = if x ≤ 399 then oc.win1.border else oc.win2.border := by
  rw [Compositor.borderAt, Compositor.borderB, split]

/-! ### The view area (R131, R143, R149) -/

theorem State.viewPixel_blanked (blanked : (s.output o).blanked = true) : s.viewPixel o x y = Config.black := by
  simp [State.viewPixel, blanked]

section
variable (shown : (s.output o).blanked = false)
include shown

theorem State.viewPixel_still (still : (s.output o).mode = .still) :
    s.viewPixel o x y = RowStore.pixel (s.still o).pixels Config.viewWidth (x - 48) (y - 32) := by
  simp [State.viewPixel, shown, still]

variable (live : (s.output o).mode = .liveView)
include live

theorem State.viewPixel_full {a : CamId} (full : (s.output o).shown = .full a) :
    s.viewPixel o x y = s.windowPixel (s.output o).win1 (x - 48) (y - 32) := by
  simp [State.viewPixel, State.livePixel, shown, live, full]

theorem State.viewPixel_split {a b : CamId} (split : (s.output o).shown = .split a b) : s.viewPixel o x y =
    if x ≤ 399 then s.windowPixel (s.output o).win1 (176 + (x - 48)) (y - 32)
    else s.windowPixel (s.output o).win2 (176 + (x - 400)) (y - 32) := by
  simp [State.viewPixel, State.livePixel, shown, live, split]

end

end Sys2Proof.Machine

open Sys2Proof Sys2Proof.Machine

/-- Settles O42, by the place of the raster: while held, outside the view area, and inside it by what the output shows. -/
theorem rasterPixels : Obligations.RasterPixels := by
  unfold Obligations.RasterPixels
  intro s o x y oc inView sends black colour border camera
  have bordered (b : Border) : b.pixel x = border b := by
    rw [Border.pixel_eq]
    cases b <;> rfl
  have drawn (w : Window) (u v : Nat) : s.windowPixel w u v = camera w u v := by
    unfold State.windowPixel
    cases slot : w.slot <;> simp only [camera, slot] <;> rfl
  refine ⟨fun held => ?_, fun running outside => ⟨fun a full => ?_, fun a b split => ⟨fun left => ?_, fun right => ?_⟩⟩,
    fun running inside blanked => ?_, fun running inside shown still => ?_, fun running inside shown live =>
    ⟨fun a full => ?_, fun a b split => ⟨fun left => ?_, fun right => ?_⟩⟩⟩
  · simp [sends, State.rasterPixel, held, black, Config.black]
  · exact (State.rasterPixel_border running outside).trans (by rw [Compositor.borderAt_full full, bordered])
  · exact (State.rasterPixel_border running outside).trans (by
      rw [Compositor.borderAt_split split, if_pos left, bordered])
  · exact (State.rasterPixel_border running outside).trans (by
      rw [Compositor.borderAt_split split, if_neg (by omega), bordered])
  · exact (State.rasterPixel_view running inside).trans (State.viewPixel_blanked blanked)
  · exact (State.rasterPixel_view running inside).trans (State.viewPixel_still shown still)
  · exact (State.rasterPixel_view running inside).trans ((State.viewPixel_full shown live full).trans (drawn _ _ _))
  · exact (State.rasterPixel_view running inside).trans ((State.viewPixel_split shown live split).trans
      (by rw [if_pos left, drawn]))
  · exact (State.rasterPixel_view running inside).trans ((State.viewPixel_split shown live split).trans
      (by rw [if_neg (by omega), drawn]))

end

section
/-! Arbitration of one output as the arbiter sees it: of the arbiter it changes that output's grant alone, and the grant's
place in the order of receipt is the old one or that of the latest receipt (R158–R165). -/

namespace Sys2Proof.Machine

variable {s t u : State} {o : OutId} {r : Requester}

/-- Output `o` is arbitrated, and nothing of the arbiter changes but the grants; its own is no later than it was, or than the
latest receipt. -/
structure State.Arbitrates (s t : State) (o : OutId) : Prop extends State.Regrants s t o where
  outsAlone : t.arbiter = { s.arbiter with outs := t.arbiter.outs }
  order : (t.outGrant o).grantOrder = (s.outGrant o).grantOrder ∨ (t.outGrant o).grantOrder = s.arbiter.receipts

namespace State.Arbitrates

theorem trans (h : s.Arbitrates t o) (g : t.Arbitrates u o) : s.Arbitrates u o where
  toRegrants := h.toRegrants.trans g.toRegrants
  outsAlone := by rw [g.outsAlone, h.outsAlone]
  order := by
    have before := h.order
    have after := g.order
    rw [h.receipts] at after
    exact after.elim (fun same => same ▸ before) .inr

theorem setOutGrant {g : OutGrant}
    (order : g.grantOrder = (s.outGrant o).grantOrder ∨ g.grantOrder = s.arbiter.receipts := by exact .inl rfl) :
    s.Arbitrates (s.setOutGrant o g) o where
  toRegrants := .setOutGrant s o g
  outsAlone := rfl
  order := by rw [State.setOutGrant_outGrant]; exact order

theorem refl (s : State) (o : OutId) : s.Arbitrates s o where
  table := rfl
  receipts := rfl
  outGrant _ _ := rfl
  output _ _ := rfl
  copies ok := ⟨ok, fun _ clear => clear⟩
  view := .refl s
  outsAlone := rfl
  order := .inl rfl

theorem ite (yes : s.Arbitrates t o) (no : s.Arbitrates u o) (p : Prop) [Decidable p] :
    s.Arbitrates (if p then t else u) o := by
  split
  · exact yes
  · exact no

theorem viewStatus (s : State) (o : OutId) : s.Arbitrates (s.ask (.viewStatus o)) o where
  table := rfl
  receipts := rfl
  outGrant _ _ := rfl
  output _ _ := rfl
  copies ok := ⟨ok, fun _ clear => clear⟩
  view := (State.ViewFrame.refl s).viewStatus o
  outsAlone := rfl
  order := .inl rfl

theorem grantChange (s : State) (o : OutId) : s.Arbitrates (s.grantChange o) o where
  toRegrants := .grantChange s o
  outsAlone := by rw [State.grantChange_arbiter]
  order := by rw [State.grantChange_outGrant]; exact .inl rfl

theorem formCandidate (s : State) (o : OutId) : s.Arbitrates (s.formCandidate o) o := setOutGrant
theorem grantTo (s : State) (o : OutId) (r : Requester) : s.Arbitrates (s.grantTo o r) o :=
  ((setOutGrant (.inr rfl)).trans (formCandidate _ o)).trans (grantChange _ o)
theorem grantDefault (s : State) (o : OutId) : s.Arbitrates (s.grantDefault o) o :=
  trans setOutGrant (grantChange _ o)
theorem grantBest (s : State) (o : OutId) : s.Arbitrates (s.grantBest o) o := by
  unfold State.grantBest
  split
  · exact grantTo s o _
  · exact grantDefault s o
theorem afterReceipt (s : State) (o : OutId) (r : Requester) (e : Entry) : s.Arbitrates (s.afterReceipt o r e) o := by
  unfold State.afterReceipt
  split
  · exact grantTo s o r
  · exact ((grantTo s o r).ite (grantBest s o) _).ite
      ((grantBest s o).ite ((grantTo s o r).ite (formCandidate s o) _) _) _
theorem afterRemoval (s : State) (o : OutId) (r : Requester) : s.Arbitrates (s.afterRemoval o r) o :=
  (grantBest s o).ite (formCandidate s o) _
theorem afterExpiry (s : State) (o : OutId) (r : Requester) : s.Arbitrates (s.afterExpiry o r) o := by
  unfold State.afterExpiry
  refine ite ?_ (formCandidate s o) _
  split
  · exact (grantDefault s o).trans (grantTo _ o _)
  · exact grantDefault s o
theorem afterLowering (s : State) (o : OutId) (r : Requester) (e : Entry) : s.Arbitrates (s.afterLowering o r e) o :=
  (((viewStatus s o).trans (formCandidate _ o)).ite (grantBest s o) _).ite (formCandidate s o) _
theorem dwellElapsed (s : State) (o : OutId) : s.Arbitrates (s.dwellElapsed o) o := by
  unfold State.dwellElapsed
  split
  · exact grantTo s o _
  · exact setOutGrant
theorem dwellWritten (s : State) (o : OutId) : s.Arbitrates (s.dwellWritten o) o :=
  (dwellElapsed s o).ite (ite setOutGrant (refl s o) _) _

end State.Arbitrates

/-! ### Receipts stay in order (R154, R161) -/

/-- Every entry and every grant is no later than the latest receipt, also where the table and the receipts move on. -/
theorem State.ordersOk_setArbiter {a : Arbiter} (outs : a.outs = s.arbiter.outs) (orders : s.OrdersOk)
    (receipts : s.arbiter.receipts ≤ a.receipts)
    (entries : ∀ q r e, (a.table.get q).get r = some e → e.order ≤ a.receipts) : (s.setArbiter a).OrdersOk := by
  refine fun q => ⟨entries q, ?_⟩
  rw [State.outGrant_of_outs outs]
  exact le_trans (orders q).2 receipts

theorem State.OrdersOk.of_arbiter (orders : s.OrdersOk) (same : t.arbiter = s.arbiter) : t.OrdersOk := by
  unfold State.OrdersOk State.entry? State.requests State.outGrant
  rw [same]
  exact orders

theorem State.OrdersOk.stored (orders : s.OrdersOk) (id : ParamId) (v : Int) : (s.stored id v).OrdersOk :=
  orders.of_arbiter rfl

theorem State.HoldersOk.stored (holders : s.HoldersOk) (id : ParamId) (v : Int) : (s.stored id v).HoldersOk :=
  holders.of_arbiter rfl

theorem State.OrdersOk.arbitrates (orders : s.OrdersOk) (h : s.Arbitrates t o) : t.OrdersOk := by
  refine fun q => ⟨fun r e entry => ?_, ?_⟩
  · rw [h.receipts]
    exact (orders q).1 r e ((h.entry? q r).symm.trans entry)
  · rw [h.receipts]
    by_cases here : q = o
    · subst here
      exact h.order.elim (fun same => same ▸ (orders q).2) le_of_eq
    · rw [h.outGrant q here]
      exact (orders q).2

/-- An entry placed in the table, or taken out, with an order no later than the latest receipt. -/
theorem State.OrdersOk.setEntry (orders : s.OrdersOk) (o : OutId) (r : Requester) {x : Option Entry}
    (early : ∀ e, x = some e → e.order ≤ s.arbiter.receipts) : (s.setEntry o r x).OrdersOk := by
  refine State.ordersOk_setArbiter rfl orders (le_refl _) (fun q p e entry => ?_)
  by_cases here : q = o
  · subst here
    rw [PerOut.get_set, if_pos rfl, Requests.get_set] at entry
    split at entry
    · exact early e entry
    · exact (orders q).1 p e entry
  · rw [PerOut.get_set, if_neg here] at entry
    exact (orders q).1 p e entry

theorem State.OrdersOk.receive (orders : s.OrdersOk) (o : OutId) (r : Requester) (v : View) (p hold : Nat) :
    (s.receive o r v p hold).OrdersOk := by
  have counted : (s.setArbiter { s.arbiter with receipts := s.arbiter.receipts + 1 }).OrdersOk :=
    State.ordersOk_setArbiter rfl orders (Nat.le_succ _) (fun q r e entry => le_trans ((orders q).1 r e entry) (Nat.le_succ _))
  exact (counted.setEntry o r (fun e placed => by cases placed; exact le_refl _)).arbitrates (.afterReceipt _ o r _)

theorem State.OrdersOk.remove (orders : s.OrdersOk) (o : OutId) (r : Requester) : (s.remove o r).OrdersOk := by
  unfold State.remove
  split
  · exact orders
  · exact (orders.setEntry o r (x := none) nofun).arbitrates (.afterRemoval _ o r)

theorem State.OrdersOk.lowerEntry (orders : s.OrdersOk) (k : ReqSlot) (p : Nat) (o : OutId) :
    (s.lowerEntry k p o).OrdersOk := by
  unfold State.lowerEntry
  split
  next => exact orders
  next e entry =>
    dsimp only
    split
    · exact (orders.setEntry o (.master k) (fun e' placed => by cases placed; exact (orders o).1 _ e entry)).arbitrates
        (.afterLowering _ o _ _)
    · exact orders

theorem State.OrdersOk.augerRemove (orders : s.OrdersOk) : s.augerRemove.OrdersOk := (orders.remove .a _).remove .b _

theorem State.OrdersOk.augerCreate (orders : s.OrdersOk) : s.augerCreate.OrdersOk := orders.receive _ _ _ _ _

theorem State.OrdersOk.ite (yes : s.OrdersOk) (no : t.OrdersOk) (p : Prop) [Decidable p] :
    State.OrdersOk (if p then s else t) := by
  split
  · exact yes
  · exact no

theorem State.OrdersOk.augerPriorityChanged (orders : s.OrdersOk) : s.augerPriorityChanged.OrdersOk :=
  orders.augerRemove.ite (orders.augerCreate.ite orders _) _
theorem State.OrdersOk.augerCameraChanged (orders : s.OrdersOk) : s.augerCameraChanged.OrdersOk :=
  orders.augerCreate.ite orders _
theorem State.OrdersOk.augerOutputChanged (orders : s.OrdersOk) : s.augerOutputChanged.OrdersOk :=
  orders.augerRemove.augerCreate.ite orders _

theorem State.OrdersOk.changeChannel (orders : s.OrdersOk) (e : ChanId) (ch : Channel) : (s.changeChannel e ch).OrdersOk := by
  by_cases quiet : ch.state = (s.channel e).state ∧ ch.auger = (s.channel e).auger
  · rw [State.changeChannel_quiet quiet.1 quiet.2]
    exact orders.of_arbiter rfl
  · rw [State.changeChannel_reported (not_and_or.mp quiet)]
    have reported : ((s.setChannel e ch).ask (.encoderReport e)).OrdersOk := orders.of_arbiter rfl
    exact ((reported.augerCreate.ite reported _).ite (reported.augerRemove.ite reported _) _).ite reported _

/-! ### A keep-alive expiry before its arbitration (R167) -/

/-- The state in which requester `k`'s persistent entries are out of the table, its expiry is counted and REQUEST_EXPIRED
asked for. -/
def State.expiryNoted (s : State) (k : ReqSlot) : State :=
  let d := (s.dropPersistent k .a).dropPersistent k .b
  let n := bump (d.arbiter.expiryCount.get k)
  (d.setArbiter { d.arbiter with expiryCount := d.arbiter.expiryCount.set k n }).notice .requestExpired k.num n

theorem State.expire_eq (s : State) (k : ReqSlot) : s.expire k =
    (let w := if s.hasPersistent k .a then (s.expiryNoted k).afterExpiry .a (.master k) else s.expiryNoted k
     if s.hasPersistent k .b then w.afterExpiry .b (.master k) else w) := rfl

/-- A requester's persistent entry taken out moves the table alone. -/
theorem State.dropPersistent_rest (s : State) (k : ReqSlot) (o : OutId) :
    ∃ table, s.dropPersistent k o = s.setArbiter { s.arbiter with table := table } := by
  unfold State.dropPersistent
  split
  · exact ⟨_, rfl⟩
  · exact ⟨s.arbiter.table, rfl⟩

/-- Of the part, the table, the expiry count and the queue alone have moved. -/
theorem State.expiryNoted_rest (s : State) (k : ReqSlot) : ∃ table, s.expiryNoted k =
    (s.setArbiter { s.arbiter with
      table := table, expiryCount := s.arbiter.expiryCount.set k (bump (s.arbiter.expiryCount.get k)) }).ask
      (.faultNotice .requestExpired k.num (bump (s.arbiter.expiryCount.get k))) := by
  obtain ⟨first, onA⟩ := s.dropPersistent_rest k .a
  obtain ⟨second, onB⟩ := (s.dropPersistent k .a).dropPersistent_rest k .b
  refine ⟨second, ?_⟩
  unfold State.expiryNoted
  rw [onB, onA]
  rfl

/-- The persistent entries of the requester are gone, and no other. -/
theorem State.expiryNoted_entry (s : State) (k : ReqSlot) (q : OutId) (r : Requester) : (s.expiryNoted k).entry? q r =
    if r = .master k ∧ s.hasPersistent k q = true then none else s.entry? q r := by
  have onB : (s.dropPersistent k .a).hasPersistent k .b = s.hasPersistent k .b := by
    unfold State.hasPersistent State.entry?
    rw [State.dropPersistent_get]
    simp
  change (((s.dropPersistent k .a).dropPersistent k .b).requests q).get r = _
  rw [State.dropPersistent_get, State.dropPersistent_get, onB]
  unfold State.entry?
  cases q <;> simp

theorem State.OrdersOk.expiryNoted (orders : s.OrdersOk) (k : ReqSlot) : (s.expiryNoted k).OrdersOk := by
  have dropped {w : State} (g : w.OrdersOk) (o : OutId) : (w.dropPersistent k o).OrdersOk :=
    (g.setEntry o _ (x := none) nofun).ite g _
  exact dropped (dropped orders .a) .b

theorem State.OrdersOk.expire (orders : s.OrdersOk) (k : ReqSlot) : (s.expire k).OrdersOk := by
  rw [State.expire_eq]
  have arbitrated {w : State} (g : w.OrdersOk) (o : OutId) (b : Bool) :
      State.OrdersOk (if b then w.afterExpiry o (.master k) else w) := (g.arbitrates (.afterExpiry w o _)).ite g _
  exact arbitrated (arbitrated (orders.expiryNoted k) .a _) .b _

/-! ### The table after each operation (R154, R156, R164, R167) -/

theorem State.setEntry_entry (s : State) (o : OutId) (r : Requester) (x : Option Entry) (q : OutId) (p : Requester) :
    (s.setEntry o r x).entry? q p = if q = o ∧ p = r then x else s.entry? q p := by
  unfold State.setEntry State.setRequests State.entry? State.requests
  rw [State.setArbiter_arbiter, PerOut.get_set]
  by_cases here : q = o
  · subst here
    rw [if_pos rfl, Requests.get_set]
    simp only [true_and]
  · rw [if_neg here, if_neg (fun same => here same.1)]

theorem State.receive_entry (s : State) (o : OutId) (r : Requester) (v : View) (n hold : Nat) (q : OutId) (p : Requester) :
    (s.receive o r v n hold).entry? q p =
      if q = o ∧ p = r then some ⟨v, n, hold, s.timebase, s.arbiter.receipts + 1⟩ else s.entry? q p :=
  ((State.Arbitrates.afterReceipt _ o r _).entry? q p).trans (State.setEntry_entry _ o r _ q p)

theorem State.remove_entry (s : State) (o : OutId) (r : Requester) (q : OutId) (p : Requester) :
    (s.remove o r).entry? q p = if q = o ∧ p = r then none else s.entry? q p := by
  unfold State.remove
  split
  next absent =>
    split
    next here => rw [here.1, here.2, absent]
    next => rfl
  next => exact ((State.Arbitrates.afterRemoval _ o r).entry? q p).trans (s.setEntry_entry o r none q p)

theorem State.expire_entry (s : State) (k : ReqSlot) (q : OutId) (p : Requester) : (s.expire k).entry? q p =
    if p = .master k ∧ s.hasPersistent k q = true then none else s.entry? q p := by
  rw [State.expire_eq, ← State.expiryNoted_entry]
  have arbitrated (w : State) (o : OutId) (b : Bool) :
      (if b then w.afterExpiry o (.master k) else w).entry? q p = w.entry? q p := by
    split
    · exact (State.Arbitrates.afterExpiry w o _).entry? q p
    · rfl
  exact (arbitrated _ .b _).trans (arbitrated _ .a _)

/-- A lowered entry is the requester's own of that output. -/
theorem State.lowerEntry_entry (s : State) (k : ReqSlot) (n : Nat) (o q : OutId) (p : Requester) :
    (s.lowerEntry k n o).entry? q p = if q = o ∧ p = .master k then
      (s.entry? o p).map (fun e => if n < e.priority then { e with priority := n } else e) else s.entry? q p := by
  unfold State.lowerEntry
  split
  next absent =>
    split
    next here =>
      rw [here.1, here.2, absent]
      rfl
    next => rfl
  next e entry =>
    dsimp only
    split
    next above =>
      refine ((State.Arbitrates.afterLowering _ o _ _).entry? q p).trans ((s.setEntry_entry o _ _ q p).trans ?_)
      split
      next here => rw [here.2, entry, Option.map_some, if_pos above]
      next => rfl
    next under =>
      split
      next here => rw [here.1, here.2, entry, Option.map_some, if_neg under]
      next => rfl

end Sys2Proof.Machine

end

section
/-! The auger entry (R169, R170, R172): when it stands, and that what creates, removes and replaces it keeps it to channel 2's
auger state and the auger parameters. -/

namespace Sys2Proof.Machine

variable {s t : State} {o : OutId}

/-- The auger requester is to have an entry. -/
@[reducible] def State.AugerDue (s : State) : Prop := (s.channel .ec2).auger = .outside ∧ 0 < s.params.augerPriority

/-- An entry made of the auger parameters. -/
def Entry.OfAuger (e : Entry) (p : Params) : Prop :=
  e.view = .full p.augerCamera ∧ e.priority = p.augerPriority ∧ e.hold = 0

theorem State.augerOk_iff : s.AugerOk ↔
    (s.AugerDue → ∃ e, s.entry? s.params.augerOutput .auger = some e ∧ e.OfAuger s.params) ∧
    ∀ o, ¬(o = s.params.augerOutput ∧ s.AugerDue) → s.entry? o .auger = none := by
  have clause (o : OutId) : (o = s.params.augerOutput ∧ 0 < s.params.augerPriority ∧ (s.channel .ec2).auger = .outside) ↔
      (o = s.params.augerOutput ∧ s.AugerDue) := and_congr_right fun _ => And.comm
  refine ⟨fun ok => ⟨fun due => ?_, fun o absent => ?_⟩, fun ⟨stands, absent⟩ o => ?_⟩
  · have here := ok s.params.augerOutput
    rw [if_pos ((clause _).mpr ⟨rfl, due⟩)] at here
    exact here
  · have there := ok o
    rw [if_neg (mt (clause o).mp absent)] at there
    exact there
  · split
    next due =>
      obtain ⟨here, due⟩ := (clause o).mp due
      exact here ▸ stands due
    next none => exact absent o (mt (clause o).mpr none)

namespace State.AugerOk

theorem stands (h : s.AugerOk) (due : s.AugerDue) :
    ∃ e, s.entry? s.params.augerOutput .auger = some e ∧ e.OfAuger s.params := (State.augerOk_iff.mp h).1 due

theorem vacant (h : s.AugerOk) (absent : ¬(o = s.params.augerOutput ∧ s.AugerDue)) : s.entry? o .auger = none :=
  (State.augerOk_iff.mp h).2 o absent

theorem none_of_not_due (h : s.AugerOk) (idle : ¬s.AugerDue) (o : OutId) : s.entry? o .auger = none :=
  h.vacant fun due => idle due.2

/-- The arbiter finds the auger entry on one of the outputs exactly when it is due. -/
theorem on_iff (h : s.AugerOk) : (s.augerOn .a || s.augerOn .b) = true ↔ s.AugerDue := by
  rw [Bool.or_eq_true]
  refine ⟨fun on => ?_, fun due => ?_⟩
  · by_contra idle
    have absent := h.none_of_not_due idle
    simp [State.augerOn, absent] at on
  · obtain ⟨e, entry, -⟩ := h.stands due
    have here : s.augerOn s.params.augerOutput = true := by rw [State.augerOn, entry]; rfl
    cases output : s.params.augerOutput <;> rw [output] at here
    · exact .inl here
    · exact .inr here

theorem of_vacant (idle : ¬s.AugerDue) (absent : ∀ o, s.entry? o .auger = none) : s.AugerOk :=
  State.augerOk_iff.mpr ⟨fun due => absurd due idle, fun o _ => absent o⟩

/-- The auger entries, the auger parameters and whether channel 2 is OUT alone matter. -/
theorem of_same (h : s.AugerOk) (entries : ∀ o, t.entry? o .auger = s.entry? o .auger)
    (output : t.params.augerOutput = s.params.augerOutput) (camera : t.params.augerCamera = s.params.augerCamera)
    (priority : t.params.augerPriority = s.params.augerPriority)
    (known : (t.channel .ec2).auger = .outside ↔ (s.channel .ec2).auger = .outside) : t.AugerOk := by
  intro o
  rw [entries, output, camera, priority, if_congr (and_congr_right fun _ => and_congr_right fun _ => known) rfl rfl]
  exact h o

/-- Made, or made anew, where no other output has one. -/
theorem augerCreate (due : s.AugerDue) (elsewhere : ∀ o, o ≠ s.params.augerOutput → s.entry? o .auger = none) :
    s.augerCreate.AugerOk := by
  have view := (State.ViewFrame.refl s).augerCreate
  rw [State.augerOk_iff, State.AugerDue, State.channel, view.params, view.channels]
  unfold State.augerCreate
  refine ⟨fun _ => ?_, fun o absent => ?_⟩
  · rw [State.receive_entry, if_pos ⟨rfl, rfl⟩]
    exact ⟨_, rfl, rfl, rfl, rfl⟩
  · have other : o ≠ s.params.augerOutput := fun here => absent ⟨here, due⟩
    rw [State.receive_entry, if_neg fun here => other here.1]
    exact elsewhere o other

end State.AugerOk

theorem State.augerRemove_entry (s : State) (o : OutId) : s.augerRemove.entry? o .auger = none := by
  unfold State.augerRemove
  rw [State.remove_entry, State.remove_entry]
  cases o <;> rfl

theorem State.augerRemove_due (s : State) : s.augerRemove.AugerDue ↔ s.AugerDue := by
  have view := (State.ViewFrame.refl s).augerRemove
  unfold State.AugerDue State.channel
  rw [view.channels, view.params]

theorem State.AugerOk.augerRemove (idle : ¬s.AugerDue) : s.augerRemove.AugerOk :=
  .of_vacant (fun due => idle (s.augerRemove_due.mp due)) s.augerRemove_entry

/-- A change of channel 2's auger state makes or removes the entry with it (R169). -/
theorem State.AugerOk.augerChanged {old : AugerState}
    (vacant : ∀ o, ¬(o = s.params.augerOutput ∧ old = .outside ∧ 0 < s.params.augerPriority) → s.entry? o .auger = none)
    (same : old = .outside → (s.channel .ec2).auger = .outside → s.AugerOk) :
    (s.augerChanged old (s.channel .ec2).auger).AugerOk := by
  by_cases was : old = .outside
  · by_cases out : (s.channel .ec2).auger = .outside
    · rw [State.augerChanged_quiet (.inl (out.trans was.symm))]
      exact same was out
    · have removed : s.augerChanged old (s.channel .ec2).auger = s.augerRemove :=
        (if_neg fun created => out created.1).trans (if_pos ⟨was, out⟩)
      rw [removed]
      exact .augerRemove fun due => out due.1
  · have absent (o : OutId) : s.entry? o .auger = none := vacant o fun stood => was stood.2.1
    by_cases due : s.AugerDue
    · have created : s.augerChanged old (s.channel .ec2).auger = s.augerCreate :=
        (if_pos ⟨due.1, was⟩).trans (if_pos due.2)
      rw [created]
      exact .augerCreate due fun o _ => absent o
    · have quiet : s.augerChanged old (s.channel .ec2).auger = s := by
        by_cases out : (s.channel .ec2).auger = .outside
        · exact State.augerChanged_quiet (.inr (.inr ⟨out, Nat.eq_zero_of_not_pos fun positive => due ⟨out, positive⟩⟩))
        · exact State.augerChanged_quiet (.inr (.inl ⟨out, was⟩))
      rw [quiet]
      exact .of_vacant due absent

theorem State.AugerOk.changeChannel (h : s.AugerOk) (e : ChanId) (ch : Channel) : (s.changeChannel e ch).AugerOk := by
  have unsignalled {u : State} (arbiter : u.arbiter = s.arbiter) (params : u.params = s.params)
      (known : (u.channel .ec2).auger = .outside ↔ (s.channel .ec2).auger = .outside) : u.AugerOk :=
    h.of_same (fun o => by rw [State.entry?, State.requests, arbiter]; rfl) (by rw [params]) (by rw [params])
      (by rw [params]) known
  by_cases quiet : ch.state = (s.channel e).state ∧ ch.auger = (s.channel e).auger
  · rw [State.changeChannel_quiet quiet.1 quiet.2]
    refine unsignalled rfl rfl ?_
    rw [State.setChannel_channel]
    split
    next second => rw [second, quiet.2]
    next => rfl
  · rw [State.changeChannel_reported (not_and_or.mp quiet)]
    by_cases second : e = .ec2
    · subst second
      rw [if_pos rfl]
      have auger : (((s.setChannel .ec2 ch).ask (.encoderReport .ec2)).channel .ec2).auger = ch.auger := rfl
      have changed := State.AugerOk.augerChanged (s := (s.setChannel .ec2 ch).ask (.encoderReport .ec2))
        (old := (s.channel .ec2).auger) (fun o absent => h.vacant fun stood => absent stood)
        (fun was out => unsignalled rfl rfl (iff_of_true out was))
      rw [auger] at changed
      exact changed
    · rw [if_neg second]
      refine unsignalled rfl rfl ?_
      have kept : ((s.setChannel e ch).ask (.encoderReport e)).channel .ec2 = s.channel .ec2 :=
        (s.setChannel_channel e ch .ec2).trans (if_neg (Ne.symm second))
      rw [kept]

/-! ### Writes of the auger parameters (R170) -/

theorem outOfCode_of_num {v : Int} (code : (o.num : Int) = v) : outOfCode v = o := by
  subst code
  cases o <;> rfl

theorem camOfCode_of_num {c : CamId} {v : Int} (code : (c.num : Int) = v) : camOfCode v = c := by
  subst code
  cases c <;> rfl

section
variable (s) (v : Int)

theorem State.storeParam_augerPriority : s.storeParam .augerPriority v =
    if (s.params.augerPriority : Int) = s.params.fit .augerPriority v then s.stored .augerPriority v
    else (s.stored .augerPriority v).augerPriorityChanged := rfl
theorem State.storeParam_augerCamera : s.storeParam .augerCamera v =
    if (s.params.augerCamera.num : Int) = s.params.fit .augerCamera v then s.stored .augerCamera v
    else (s.stored .augerCamera v).augerCameraChanged := rfl
theorem State.storeParam_augerOutput : s.storeParam .augerOutput v =
    if (s.params.augerOutput.num : Int) = s.params.fit .augerOutput v then s.stored .augerOutput v
    else (s.stored .augerOutput v).augerOutputChanged := rfl

end

/-- What a changed AUGER_PRIORITY comes to: 0 removes the entry, another value makes it, or makes it anew, while channel 2 is
OUT. -/
theorem State.AugerOk.augerPriorityChanged_eq (h : s.AugerOk) (n : Nat) :
    (s.setParams { s.params with augerPriority := n }).augerPriorityChanged =
      if n = 0 then (s.setParams { s.params with augerPriority := n }).augerRemove
      else if (s.channel .ec2).auger = .outside then (s.setParams { s.params with augerPriority := n }).augerCreate
      else s.setParams { s.params with augerPriority := n } := by
  have acts : ((s.augerOn .a || s.augerOn .b || decide ((s.channel .ec2).auger = .outside)) = true) ↔
      (s.channel .ec2).auger = .outside := by
    rw [Bool.or_eq_true, h.on_iff, decide_eq_true_iff]
    exact ⟨fun either => either.elim (·.1) id, .inr⟩
  unfold State.augerPriorityChanged
  exact if_congr Iff.rfl rfl (if_congr acts rfl rfl)

/-- A changed AUGER_CAMERA makes an entry that stands anew. -/
theorem State.AugerOk.augerCameraChanged_eq (h : s.AugerOk) (c : CamId) :
    (s.setParams { s.params with augerCamera := c }).augerCameraChanged =
      if s.AugerDue then (s.setParams { s.params with augerCamera := c }).augerCreate
      else s.setParams { s.params with augerCamera := c } :=
  if_congr h.on_iff rfl rfl

/-- A changed AUGER_OUTPUT moves an entry that stands. -/
theorem State.AugerOk.augerOutputChanged_eq (h : s.AugerOk) (o : OutId) :
    (s.setParams { s.params with augerOutput := o }).augerOutputChanged =
      if s.AugerDue then (s.setParams { s.params with augerOutput := o }).augerRemove.augerCreate
      else s.setParams { s.params with augerOutput := o } :=
  if_congr h.on_iff rfl rfl

theorem State.AugerOk.augerPriorityChanged (h : s.AugerOk) (n : Nat) :
    (s.setParams { s.params with augerPriority := n }).augerPriorityChanged.AugerOk := by
  rw [h.augerPriorityChanged_eq]
  split
  next zero => exact .augerRemove fun due => (Nat.ne_of_gt due.2) zero
  next positive =>
    split
    next out =>
      refine .augerCreate ⟨out, Nat.pos_of_ne_zero positive⟩ fun o other => ?_
      exact h.vacant (o := o) fun due => other due.1
    next isIn => exact .of_vacant (fun due => isIn due.1) (h.none_of_not_due fun due => isIn due.1)

theorem State.AugerOk.augerCameraChanged (h : s.AugerOk) (c : CamId) :
    (s.setParams { s.params with augerCamera := c }).augerCameraChanged.AugerOk := by
  rw [h.augerCameraChanged_eq]
  split
  next due => exact .augerCreate due fun o other => h.vacant (o := o) fun here => other here.1
  next idle => exact .of_vacant idle (h.none_of_not_due idle)

theorem State.AugerOk.augerOutputChanged (h : s.AugerOk) (o : OutId) :
    (s.setParams { s.params with augerOutput := o }).augerOutputChanged.AugerOk := by
  rw [h.augerOutputChanged_eq]
  split
  next due => exact .augerCreate ((State.augerRemove_due _).mpr due) fun o _ => State.augerRemove_entry _ o
  next idle => exact .of_vacant idle (h.none_of_not_due idle)

end Sys2Proof.Machine

end

section
/-! The request table through every command: the rule of the holders, the order of receipt and the rule of the auger entry, for
every operation that reaches the arbiter, channel 2's auger state or the auger parameters (R154, R158, R169, R170, R172). -/

namespace Sys2Proof.Machine

/-- From `s` to `t` the holder rule, the order of receipt and the rule of the auger entry are kept. -/
structure State.KeepsTable (s t : State) : Prop where
  holders : s.HoldersOk → t.HoldersOk
  orders : s.OrdersOk → t.OrdersOk
  auger : s.AugerOk → t.AugerOk

namespace State.KeepsTable

variable {s t u : State}

theorem refl (s : State) : s.KeepsTable s := ⟨id, id, id⟩

theorem trans (h : s.KeepsTable t) (g : t.KeepsTable u) : s.KeepsTable u :=
  ⟨fun ok => g.holders (h.holders ok), fun ok => g.orders (h.orders ok), fun ok => g.auger (h.auger ok)⟩

/-- Of the arbiter, the parameters and the channels other parts than the table, the grants, the receipts, the auger parameters
and channel 2's auger state do not matter. -/
theorem aside (h : s.KeepsTable t) (table : u.arbiter.table = t.arbiter.table := by rfl)
    (outs : u.arbiter.outs = t.arbiter.outs := by rfl) (receipts : u.arbiter.receipts = t.arbiter.receipts := by rfl)
    (output : u.params.augerOutput = t.params.augerOutput := by rfl)
    (camera : u.params.augerCamera = t.params.augerCamera := by rfl)
    (priority : u.params.augerPriority = t.params.augerPriority := by rfl)
    (known : (u.channel .ec2).auger = (t.channel .ec2).auger := by rfl) : s.KeepsTable u := by
  have entries (o : OutId) : u.requests o = t.requests o := congrArg (·.get o) table
  have grants (o : OutId) : u.outGrant o = t.outGrant o := congrArg (·.get o) outs
  refine h.trans ⟨fun ok o => ?_, fun ok o => ?_, fun ok => ok.of_same (fun o => ?_) output camera priority ?_⟩
  · rw [entries, grants]
    exact ok o
  · unfold State.entry?
    rw [entries, grants, receipts]
    exact ok o
  · rw [State.entry?, entries]
    rfl
  · rw [known]

theorem ite (yes : s.KeepsTable t) (no : s.KeepsTable u) (p : Prop) [Decidable p] : s.KeepsTable (if p then t else u) := by
  split
  · exact yes
  · exact no

theorem foldl {α : Type} {f : State → α → State} (each : ∀ (u : State) (a : α), s.KeepsTable u → s.KeepsTable (f u a))
    (l : List α) (h : s.KeepsTable t) : s.KeepsTable (l.foldl f t) := by
  induction l generalizing t with
  | nil => exact h
  | cons a l ih => exact ih (each t a h)

/-! ### Updates that leave the table alone -/

theorem setMi (h : s.KeepsTable t) (v : Interface) : s.KeepsTable (t.setMi v) := h.aside
theorem ask (h : s.KeepsTable t) (m : Message) : s.KeepsTable (t.ask m) := h.aside
theorem setLink (h : s.KeepsTable t) (c : CamId) (v : Link) : s.KeepsTable (t.setLink c v) := h.aside

/-- A channel whose auger state stays. -/
theorem setChannel (h : s.KeepsTable t) (e : ChanId) {ch : Channel} (known : ch.auger = (t.channel e).auger := by rfl) :
    s.KeepsTable (t.setChannel e ch) := by
  refine h.aside (known := ?_)
  rw [State.setChannel_channel]
  split
  next second => rw [second, known]
  next => rfl

/-- Links, frame store, screen, engine and phase tables stay apart from the arbiter. -/
theorem picture (h : s.KeepsTable t) (frame : t.PictureFrame u) : s.KeepsTable u :=
  h.aside (by rw [frame.arbiter]) (by rw [frame.arbiter]) (by rw [frame.arbiter]) (by rw [frame.params])
    (by rw [frame.params]) (by rw [frame.params]) (by rw [State.channel, frame.channels]; rfl)

/-- So do outputs and still unit. -/
theorem display (h : s.KeepsTable t) (frame : t.OutputFrame u) : s.KeepsTable u :=
  h.aside (by rw [frame.arbiter]) (by rw [frame.arbiter]) (by rw [frame.arbiter]) (by rw [frame.params])
    (by rw [frame.params]) (by rw [frame.params]) (by rw [State.channel, frame.channels]; rfl)

/-! ### Arbiter -/

/-- An arbiter operation that leaves the auger entries. -/
theorem arbiter (h : s.KeepsTable t) (view : t.ViewFrame u) (holders : t.HoldersOk → u.HoldersOk)
    (orders : t.OrdersOk → u.OrdersOk) (entries : ∀ o, u.entry? o .auger = t.entry? o .auger) : s.KeepsTable u :=
  h.trans ⟨holders, orders, fun ok => ok.of_same entries (by rw [view.params]) (by rw [view.params]) (by rw [view.params])
    (by rw [State.channel, view.channels]; rfl)⟩

theorem receive (h : s.KeepsTable t) (o : OutId) (k : ReqSlot) (v : View) (p hold : Nat) :
    s.KeepsTable (t.receive o (.master k) v p hold) :=
  h.arbiter ((State.ViewFrame.refl t).receive _ _ _ _ _) (·.receive _ _ _ _ _) (·.receive _ _ _ _ _)
    fun q => (t.receive_entry o _ v p hold q .auger).trans (if_neg nofun)
theorem remove (h : s.KeepsTable t) (o : OutId) (k : ReqSlot) : s.KeepsTable (t.remove o (.master k)) :=
  h.arbiter ((State.ViewFrame.refl t).remove _ _) (·.remove _ _) (·.remove _ _)
    fun q => (t.remove_entry o _ q .auger).trans (if_neg nofun)
theorem expire (h : s.KeepsTable t) (k : ReqSlot) : s.KeepsTable (t.expire k) :=
  h.arbiter ((State.ViewFrame.refl t).expire k) (·.expire k) (·.expire k)
    fun q => (t.expire_entry k q .auger).trans (if_neg nofun)
theorem keepaliveWritten (h : s.KeepsTable t) (k : ReqSlot) : s.KeepsTable (t.keepaliveWritten k) := by
  unfold State.keepaliveWritten
  split
  · exact h
  · exact (h.expire k).ite h _
theorem lowerEntry (h : s.KeepsTable t) (k : ReqSlot) (p : Nat) (o : OutId) : s.KeepsTable (t.lowerEntry k p o) :=
  h.arbiter ((State.ViewFrame.refl t).lowerEntry k p o) (·.lowerEntry k p o) (·.lowerEntry k p o)
    fun q => (t.lowerEntry_entry k p o q .auger).trans (if_neg nofun)
theorem dwellElapsed (h : s.KeepsTable t) (o : OutId) : s.KeepsTable (t.dwellElapsed o) :=
  have arbitrated := State.Arbitrates.dwellElapsed t o
  h.arbiter arbitrated.view (·.dwellElapsed o) (·.arbitrates arbitrated) fun q => arbitrated.entry? q _
theorem dwellWritten (h : s.KeepsTable t) (o : OutId) : s.KeepsTable (t.dwellWritten o) :=
  have arbitrated := State.Arbitrates.dwellWritten t o
  h.arbiter arbitrated.view (·.dwellWritten o) (·.arbitrates arbitrated) fun q => arbitrated.entry? q _

/-- A timed entry that ends is a master's: the auger's is persistent. -/
theorem timedOut (h : s.KeepsTable t) {o : OutId} {r : Requester} {e : Entry} (entry : t.entry? o r = some e)
    (ended : e.expired t.timebase = true) : s.KeepsTable (t.remove o r) := by
  cases r with
  | master k => exact h.remove o k
  | auger =>
    refine h.trans ⟨(·.remove _ _), (·.remove _ _), fun ok => ?_⟩
    have timed : 0 < e.hold := by simpa using (Bool.and_eq_true_iff.mp ended).1
    by_cases due : o = t.params.augerOutput ∧ t.AugerDue
    · obtain ⟨e', entry', -, -, persistent⟩ := ok.stands due.2
      rw [← due.1, entry] at entry'
      cases entry'
      omega
    · rw [ok.vacant due] at entry
      cases entry

/-! ### Encoder channels -/

theorem changeChannel (h : s.KeepsTable t) (e : ChanId) (ch : Channel) : s.KeepsTable (t.changeChannel e ch) :=
  h.trans ⟨(·.changeChannel e ch), (·.changeChannel e ch), (·.changeChannel e ch)⟩
theorem stopChannel (h : s.KeepsTable t) (e : ChanId) : s.KeepsTable (t.stopChannel e) := (h.ask _).changeChannel _ _
theorem armIndex (h : s.KeepsTable t) (e : ChanId) : s.KeepsTable (t.armIndex e) := h.setChannel e
theorem releaseCapture (h : s.KeepsTable t) (e : ChanId) : s.KeepsTable (t.releaseCapture e) := h.setChannel e
theorem clearChannelCounts (h : s.KeepsTable t) (e : ChanId) : s.KeepsTable (t.clearChannelCounts e) := h.setChannel e
theorem reboundPosition (h : s.KeepsTable t) (e : ChanId) : s.KeepsTable (t.reboundPosition e) := by
  unfold State.reboundPosition
  dsimp only
  split
  · exact h.setChannel e
  · exact h
theorem maxPeriodWritten (h : s.KeepsTable t) (e : ChanId) : s.KeepsTable (t.maxPeriodWritten e) := by
  unfold State.maxPeriodWritten
  split
  · exact h
  · exact (h.stopChannel e).ite h _

/-! ### Stored writes -/

theorem camWritten (h : s.KeepsTable t) (c : CamId) (p : CamParam) (old new : Int) :
    s.KeepsTable (t.camWritten c p old new) := by
  have view := State.PictureFrame.refl t
  cases p
  case linkEnable =>
    exact h.ite (((h.setLink c _).ite h _).ite (((h.picture (view.linkDown c)).ite h _).setLink c _) _) _
  case tapOverride => exact h.picture (view.forceTapUpdate c)
  case tapGate => exact (h.setLink c _).ite h _
  case holdLimit => exact h.aside
  case phaseSource => exact h.ite (h.picture (view.clearTable c)) _
  all_goals exact h
theorem chanWritten (h : s.KeepsTable t) (e : ChanId) (p : ChanParam) (old new : Int) :
    s.KeepsTable (t.chanWritten e p old new) := by
  have bound := h.reboundPosition e
  have rebound := bound.ite (bound.picture ((State.PictureFrame.refl _).clearBound e)) (old = new)
  cases p
  case enable => exact h.ite ((h.changeChannel _ _).ite (h.changeChannel _ _) _) _
  case mode => exact rebound
  case cpr => exact rebound
  case maxPeriod => exact h.maxPeriodWritten e
  case outThreshold => exact h.changeChannel _ _
  case inThreshold => exact h.changeChannel _ _
  all_goals exact h
theorem outWritten (h : s.KeepsTable t) (o : OutId) (p : OutParam) (old new : Int) :
    s.KeepsTable (t.outWritten o p old new) := by
  cases p
  case rasterRate => exact h.aside.ite h _
  all_goals exact h

/-- A write of an auger parameter, of the value held or of another (R170). -/
theorem augerPriorityStored (s : State) (v : Int) : s.KeepsTable (s.storeParam .augerPriority v) := by
  rw [State.storeParam_augerPriority]
  split
  next held => exact (refl s).aside (priority := by rw [State.stored, ← held]; rfl)
  next =>
    exact ⟨fun ok => (ok.stored _ v).augerPriorityChanged, fun ok => (ok.stored _ v).augerPriorityChanged,
      (·.augerPriorityChanged _)⟩

theorem augerCameraStored (s : State) (v : Int) : s.KeepsTable (s.storeParam .augerCamera v) := by
  rw [State.storeParam_augerCamera]
  split
  next held => exact (refl s).aside (camera := camOfCode_of_num held)
  next =>
    exact ⟨fun ok => (ok.stored _ v).augerCameraChanged, fun ok => (ok.stored _ v).augerCameraChanged,
      (·.augerCameraChanged _)⟩

theorem augerOutputStored (s : State) (v : Int) : s.KeepsTable (s.storeParam .augerOutput v) := by
  rw [State.storeParam_augerOutput]
  split
  next held => exact (refl s).aside (output := outOfCode_of_num held)
  next =>
    exact ⟨fun ok => (ok.stored _ v).augerOutputChanged, fun ok => (ok.stored _ v).augerOutputChanged,
      (·.augerOutputChanged _)⟩

theorem storeParam (h : s.KeepsTable t) (id : ParamId) (v : Int) : s.KeepsTable (t.storeParam id v) := by
  cases id with
  | cam c p => exact (h.aside (u := t.stored _ v)).camWritten c p _ _
  | chan e p => exact (h.aside (u := t.stored _ v)).chanWritten e p _ _
  | out o p => exact (h.aside (u := t.stored _ v)).outWritten o p _ _
  | dwell => exact ((h.aside (u := t.stored .dwell v)).dwellWritten _).dwellWritten _
  | keepalive => exact foldl (fun _ k g => g.keepaliveWritten k) _ (h.aside (u := t.stored .keepalive v))
  | augerOutput => exact h.trans (augerOutputStored t v)
  | augerCamera => exact h.trans (augerCameraStored t v)
  | augerPriority => exact h.trans (augerPriorityStored t v)
  | nodeCode k =>
    have stored := h.aside (u := t.stored (.nodeCode k) v)
    exact stored.ite (((stored.remove _ _).remove _ _).aside) _
  | maxPriority k =>
    have stored := h.aside (u := t.stored (.maxPriority k) v)
    exact ((stored.lowerEntry _ _ _).lowerEntry _ _ _).ite stored _

theorem writeParam (h : s.KeepsTable t) (node : Byte) (number : Word) (id : ParamId) (v : Int) :
    s.KeepsTable (t.writeParam node number id v) := by
  have stored := h.storeParam id v
  unfold State.writeParam
  split
  · exact stored.ask _
  · exact stored.ask _
  · exact h.ask _

/-! ### Commands, resets and the start -/

theorem encoderCommands (h : s.KeepsTable t) (e : ChanId) (bits : Word) : s.KeepsTable (Machine.encoderCommands e bits t) :=
  have whenBit {w : State} (g : s.KeepsTable w) (i : Nat) {f : State → State}
      (each : ∀ v : State, s.KeepsTable v → s.KeepsTable (f v)) : s.KeepsTable (Machine.whenBit bits i f w) :=
    (each w g).ite g _
  whenBit (whenBit (whenBit (whenBit h 0 fun _ g => g.changeChannel e _) 1 fun _ g => g.armIndex e) 2
    fun _ g => g.releaseCapture e) 3 fun _ g => g.clearChannelCounts e

/-- Without entries every output is to be without a holder, and the order of receipt rests on the grants. -/
theorem of_vacant (vacant : ∀ o r, t.entry? o r = none)
    (free : ∀ o, (t.outGrant o).holder = none ∧ (t.outGrant o).candidate = none)
    (order : s.OrdersOk → ∀ o, (t.outGrant o).grantOrder ≤ t.arbiter.receipts) :
    t.HoldersOk ∧ (s.OrdersOk → t.OrdersOk) := by
  refine ⟨fun o => ?_, fun ok o => ⟨fun r e entry => ?_, order ok o⟩⟩
  · obtain ⟨holder, candidate⟩ := free o
    unfold HolderOk
    rw [holder]
    exact ⟨vacant o, candidate⟩
  · rw [vacant] at entry
    cases entry

/-- After a soft reset the auger entry alone is left, made anew where it is due (R172). -/
theorem othersReset (s : State) : s.KeepsTable s.othersReset.recreateAuger := by
  have absent (o : OutId) (r : Requester) : s.othersReset.entry? o r = none := s.othersReset_entry o r
  obtain ⟨holders, orders⟩ := of_vacant (s := s) absent (fun o => by rw [State.othersReset_outGrant]; exact ⟨rfl, rfl⟩)
    (fun ok o => by rw [State.othersReset_outGrant]; exact (ok o).2)
  unfold State.recreateAuger
  split
  next due => exact ⟨fun _ => holders.augerCreate, fun ok => (orders ok).receive _ _ _ _ _,
    fun _ => .augerCreate due fun o _ => absent o _⟩
  next idle => exact ⟨fun _ => holders, orders, fun _ => .of_vacant idle fun o => absent o _⟩

theorem softReset (h : s.KeepsTable t) (node : Byte) (underWay : Bool) : s.KeepsTable (t.softReset node underWay) :=
  have linkReset (u : State) (c : CamId) (g : s.KeepsTable u) : s.KeepsTable (u.softResetLink c) :=
    ((g.picture ((State.PictureFrame.refl u).linkDown c)).ite g _).setLink c _
  (foldl linkReset CamId.all ((((h.setMi _).ask _).ask _).ask _)).trans (othersReset _)

/-- The part starts without requests, and with channel 2's auger state not known. -/
theorem start (s : State) (l : BootLevels) : s.KeepsTable (.start l) := by
  have absent (o : OutId) (r : Requester) : (State.start l).entry? o r = none := by
    cases o <;> cases r with
    | auger => rfl
    | master k => cases k <;> rfl
  obtain ⟨holders, orders⟩ := of_vacant (s := s) absent (fun o => by cases o <;> exact ⟨rfl, rfl⟩)
    (fun _ o => by cases o <;> exact le_refl 0)
  refine ⟨fun _ => holders, orders, fun _ => .of_vacant (fun due => ?_) fun o => absent o _⟩
  have unknown : ((State.start l).channel .ec2).auger = .unknown := rfl
  rw [State.AugerDue, unknown] at due
  exact absurd due.1 (by decide)

theorem powerUp (s : State) (l : BootLevels) : s.KeepsTable (s.powerUp l) := (start s l).aside

/-! ### Messages -/

theorem takeHead (h : s.KeepsTable t) : s.KeepsTable (Machine.takeHead t) := by
  rw [takeHead_rest]
  exact h.setMi _
theorem onReceipt (h : s.KeepsTable t) {f : State → State} (work : ∀ u : State, s.KeepsTable u → s.KeepsTable (f u)) :
    s.KeepsTable (Machine.onReceipt f t) := (work _ (h.setMi _)).ite h _
theorem fromNode (h : s.KeepsTable t) (node : Byte) {unknown : State → State} {known : ReqSlot → State → State}
    (hu : ∀ u : State, s.KeepsTable u → s.KeepsTable (unknown u))
    (hk : ∀ (k : ReqSlot) (u : State), s.KeepsTable u → s.KeepsTable (known k u)) :
    s.KeepsTable (Machine.fromNode node unknown known t) := by
  unfold Machine.fromNode
  split
  · exact hu _ h
  · exact hk _ _ h.aside
theorem paramMessage (h : s.KeepsTable t) (node : Byte) (id : ParamId) (value : BitVec 32) :
    s.KeepsTable (Machine.paramMessage node id value t) :=
  h.fromNode node (fun _ g => g.ask _) (fun _ _ g => g.writeParam _ _ _ _)
theorem paramReadMessage (h : s.KeepsTable t) (node : Byte) (number : Word) :
    s.KeepsTable (Machine.paramReadMessage node number t) := by
  refine h.fromNode node (fun _ g => g.ask _) (fun _ u g => ?_)
  split <;> exact g.ask _
theorem paramWriteMessage (h : s.KeepsTable t) (node : Byte) (number : Word) (value : BitVec 32) :
    s.KeepsTable (Machine.paramWriteMessage node number value t) := by
  refine h.fromNode node (fun _ g => g.ask _) (fun _ u g => ?_)
  split
  · exact g.writeParam _ _ _ _
  · exact g.ask _
  · exact g.ask _
theorem commandMessage (h : s.KeepsTable t) (node target : Byte) (bits : Word) (underWay : Bool) :
    s.KeepsTable (Machine.commandMessage node target bits underWay t) := by
  refine h.fromNode node (fun _ g => g.ask _) (fun _ u g => ?_)
  split
  next => exact g.ask _
  next target _ =>
    cases target with
    | camera c => exact (g.picture ((State.PictureFrame.refl u).cameraCommands c bits)).ask _
    | encoder e => exact (g.encoderCommands e bits).ask _
    | device => exact (g.softReset node underWay).ite (g.ask _) _
theorem freezeMessage (h : s.KeepsTable t) (node output action : Byte) :
    s.KeepsTable (Machine.freezeMessage node output action t) := by
  unfold Machine.freezeMessage
  dsimp only
  refine h.fromNode node (fun _ g => g.ask _) (fun k u g => ?_)
  have view := State.OutputFrame.refl u
  split
  · exact g.ask _
  · exact (g.ask _).ite ((g.ask _).ite ((g.display (view.freeze _ _ _)).ite (g.display (view.unfreeze _ _)) _) _) _
theorem viewRequestMessage (h : s.KeepsTable t) (node output layout camA camB priority : Byte) (hold : Word) :
    s.KeepsTable (Machine.viewRequestMessage node output layout camA camB priority hold t) := by
  refine h.fromNode node (fun _ g => g.ask _) (fun k u g => ?_)
  split
  · exact g.ask _
  · split
    · exact g.ask _
    · exact (g.receive _ _ _ _ _).ask _
theorem viewReleaseMessage (h : s.KeepsTable t) (node output : Byte) :
    s.KeepsTable (Machine.viewReleaseMessage node output t) := by
  refine h.fromNode node (fun _ g => g.ask _) (fun k u g => ?_)
  split
  · exact g.ask _
  · split
    · exact g.ask _
    · exact (g.remove _ _).ask _
theorem keepaliveMessage (h : s.KeepsTable t) (node : Byte) : s.KeepsTable (Machine.keepaliveMessage node t) :=
  h.fromNode node (fun _ g => g) (fun _ _ g => g)

/-- A frame, whatever message it carries. -/
theorem takeFrame (h : s.KeepsTable t) (f : CanFrame) : s.KeepsTable (Machine.takeFrame f t) := by
  unfold Machine.takeFrame
  split
  next => exact h
  next kind _ =>
    cases kind with
    | viewRequest => exact h.viewRequestMessage _ _ _ _ _ _ _
    | viewRelease => exact h.viewReleaseMessage _ _
    | freeze => exact h.freezeMessage _ _ _
    | paramWrite => exact h.paramWriteMessage _ _ _
    | paramRead => exact h.paramReadMessage _ _
    | command => exact h.commandMessage _ _ _ _
    | keepalive => exact h.keepaliveMessage _

/-! ### Commands of the part -/

theorem event {f : State → State} (work : ∀ u : State, s.KeepsTable u → s.KeepsTable (f u))
    (e : Machine.event f s = .next t) : s.KeepsTable t := by
  cases held : s.held
  · rw [event_running held] at e
    cases e
    exact (work s (refl s)).takeHead
  · rw [event_held held] at e
    cases e
    exact refl s

/-- A command of the links, the frame store or the engine. -/
theorem pictureEvent {f : State → State} (work : ∀ u : State, u.PictureFrame (f u)) (e : Machine.event f s = .next t) :
    s.KeepsTable t := event (fun u g => g.picture (work u)) e

theorem message {f : State → State} (work : ∀ u : State, s.KeepsTable u → s.KeepsTable (f u))
    (e : Machine.event (Machine.onReceipt f) s = .next t) : s.KeepsTable t := event (fun _ g => g.onReceipt work) e

theorem paramRow {node : Byte} {id : ParamId} {value : BitVec 32}
    (e : Machine.event (Machine.onReceipt (Machine.paramMessage node id value)) s = .next t) : s.KeepsTable t :=
  message (fun _ g => g.paramMessage node id value) e

theorem bitRow {node : Byte} {target : Target} {bits : Word} {i : Nat}
    (e : Machine.event (Machine.onReceipt (Machine.bitCommand node target bits i false)) s = .next t) : s.KeepsTable t :=
  message (fun _ g => g.commandMessage node target.byte _ false) e

/-- A command that sets a link by its state, or leaves it. -/
theorem referenceUnlock {c : CamId} (e : execReferenceUnlock c s = .next t) : s.KeepsTable t := by
  refine pictureEvent (fun u => ?_) e
  split
  · exact (State.PictureFrame.refl u).failAttempt c
  · exact (State.PictureFrame.refl u).leaveLocked c
  all_goals exact .refl u

theorem wordClock {c : CamId} (e : execWordClock c s = .next t) : s.KeepsTable t := by
  refine pictureEvent (fun u => ?_) e
  split
  · exact (State.PictureFrame.refl u).setLink _ _
  · exact (State.PictureFrame.refl u).setLink _ _
  all_goals exact .refl u

theorem pixelWord {c : CamId} {w : Word} (e : execPixelWord c w s = .next t) : s.KeepsTable t := by
  refine pictureEvent (fun u => ?_) e
  split
  · exact (State.PictureFrame.refl u).setLink _ _
  · exact (State.PictureFrame.refl u).setLink _ _
  all_goals exact .refl u

theorem quadratureEdge {c : ChanId} {a b : Bool} (e : execQuadratureEdge c a b s = .next t) : s.KeepsTable t := by
  refine event (fun u g => ?_) e
  dsimp only
  split
  · exact g.setChannel c
  · exact g.changeChannel c _

theorem indexEdge {c : ChanId} {level : Bool} (e : execIndexEdge c level s = .next t) : s.KeepsTable t := by
  refine event (fun u g => ?_) e
  dsimp only
  split
  · exact g.setChannel c
  · exact ((g.ask _).ite g _).changeChannel c _

theorem stopWatchExpiry {c : ChanId} (e : execStopWatchExpiry c s = .next t) : s.KeepsTable t := by
  refine event (fun u g => ?_) e
  split
  · exact g
  · exact (g.stopChannel _).ite g _

theorem timedExpiry {r : Requester} {o : OutId} (e : execTimedExpiry r o s = .next t) : s.KeepsTable t := by
  refine event (fun u g => ?_) e
  split
  next => exact g
  next entry =>
    split
    next ended => exact g.timedOut entry ended
    next => exact g

theorem keepaliveExpiry {k : ReqSlot} (e : execKeepaliveExpiry k s = .next t) : s.KeepsTable t := by
  refine event (fun u g => ?_) e
  split
  · exact g
  · exact (g.expire _).ite g _

theorem encoderTimer (e : execEncoderTimer s = .next t) : s.KeepsTable t := by
  refine event (fun u g => ite ?_ g _) e
  dsimp only
  split
  · exact g.setMi _
  · exact ((g.setMi _).setMi _).ask _

theorem softResetRow {node : Byte} {bits : Word} {underWay : Bool} (e : execSoftReset node bits underWay s = .next t) :
    s.KeepsTable t :=
  event (fun _ g => (g.commandMessage _ _ _ _).ite (g.onReceipt (fun _ g => g.commandMessage _ _ _ _)) _) e

theorem tick (s : State) : s.KeepsTable (Machine.tick s) := by
  cases held : s.held
  · rw [tick_of_running held]
    exact (refl s).aside
  · rw [tick_of_held held]
    exact refl s

/-- Every command keeps the rules of the table. -/
theorem exec (i : Instr) (e : Machine.exec i s = .next t) : s.KeepsTable t := by
  cases i with
  | powerOn l => cases e; exact powerUp s l
  | resetLine l => cases e; exact powerUp s l
  | resetLineActive => cases e; exact (powerUp s s.pinLevels).aside
  | setupLineChange level => cases e; exact (refl s).aside
  | referenceLock c _ => exact event (fun u g => (g.setLink c _).ite g _) e
  | acquireTimeout c => exact event (fun u g => (g.picture ((State.PictureFrame.refl u).failAttempt c)).ite g _) e
  | gateEnd c =>
    exact event (fun u g => ((g.setLink c _).ite (g.picture ((State.PictureFrame.refl u).failAttempt c)) _).ite g _) e
  | referenceUnlock c => exact referenceUnlock e
  | backoffEnd c => exact event (fun u g => (g.setLink c _).ite g _) e
  | signalLoss c => exact event (fun u g => (g.picture ((State.PictureFrame.refl u).leaveLocked c)).ite g _) e
  | frameStart c n _ =>
    exact pictureEvent (fun u => (State.PictureFrame.refl u).marker c 2 fun _ g => (g.setOffered c _).takeFrameStart c n) e
  | lineStart c _ =>
    exact pictureEvent (fun u => (State.PictureFrame.refl u).marker c 2 fun _ g =>
      g.whileReceiving c fun k _ g => g.takeLineStart c k _) e
  | pixelWord c w => exact pixelWord e
  | lineEnd c w =>
    exact pictureEvent (fun u => (State.PictureFrame.refl u).marker c 2 fun _ g =>
      g.whileReceiving c fun k _ g => g.takeLineEnd c k w) e
  | frameEnd c _ =>
    exact pictureEvent (fun u => (State.PictureFrame.refl u).marker c 1 fun _ g => (g.setOffered c _).takeFrameEnd c) e
  | wordClock c => exact wordClock e
  | jobCompletion => exact pictureEvent (fun u => (State.PictureFrame.refl u).completeJob) e
  | quadratureEdge => exact quadratureEdge e
  | indexEdge => exact indexEdge e
  | stopWatchExpiry c => exact stopWatchExpiry e
  | outputFrameStart o => exact event (fun u g => (g.display ((State.OutputFrame.refl u).outputFrame o)).ite g _) e
  | viewRequest => exact message (fun _ g => g.viewRequestMessage _ _ _ _ _ _ _) e
  | viewRelease => exact message (fun _ g => g.viewReleaseMessage _ _) e
  | timedExpiry r o => exact timedExpiry e
  | keepaliveExpiry k => exact keepaliveExpiry e
  | dwellExpiry o => exact event (fun u g => (g.dwellElapsed o).ite g _) e
  | freeze => exact message (fun _ g => g.freezeMessage _ _ _) e
  | unfreeze => exact message (fun _ g => g.freezeMessage _ _ _) e
  | copyCompletion => exact event (fun u g => g.display (State.OutputFrame.refl u).completeCopy) e
  | paramWrite => exact message (fun _ g => g.paramWriteMessage _ _ _) e
  | paramRead => exact message (fun _ g => g.paramReadMessage _ _) e
  | keepalive => exact message (fun _ g => g.keepaliveMessage _) e
  | canFrameIgnored f => exact message (fun _ g => g.takeFrame f) e
  | linkReset => exact bitRow e
  | refRefresh => exact bitRow e
  | tableClear => exact bitRow e
  | forceTapUpdate => exact message (fun u g => State.KeepsTable.commandMessage (g.setLink _ _) _ _ _ _) e
  | clearCounts => exact bitRow e
  | clearPosition => exact bitRow e
  | armIndex => exact bitRow e
  | releaseCapture => exact bitRow e
  | clearCountsEncoder => exact bitRow e
  | softReset => exact softResetRow e
  | command => exact message (fun _ g => g.commandMessage _ _ _ _) e
  | linkEnable => exact paramRow e
  | tapOverride => exact message (fun u g => State.KeepsTable.paramMessage (g.setLink _ _) _ _ _) e
  | tapGate => exact message (fun u g => State.KeepsTable.paramMessage (g.setLink _ _) _ _ _) e
  | holdLimit => exact paramRow e
  | phaseSource => exact paramRow e
  | enable => exact paramRow e
  | mode => exact paramRow e
  | cpr => exact paramRow e
  | maxPeriod => exact paramRow e
  | outThreshold => exact paramRow e
  | inThreshold => exact paramRow e
  | dwell => exact paramRow e
  | keepaliveParamWrite => exact paramRow e
  | augerPriority => exact paramRow e
  | augerCamera => exact paramRow e
  | augerOutput => exact paramRow e
  | slotNodeCode => exact paramRow e
  | slotMaxPriority => exact paramRow e
  | viewStatusTimer => exact event (fun u g => (((g.setMi _).ask _).ask _).ite g _) e
  | cameraTimer => exact event (fun u g => ((g.setMi _).ask _).ite g _) e
  | encoderTimer => exact encoderTimer e
  | frameSent => exact event (fun u g => (g.setMi _).ite g _) e
  | transmitError => exact event (fun u g => (g.setMi _).ite g _) e
  | receiveError => exact event (fun u g => (g.setMi _).ite g _) e
  | busJoin => exact event (fun u g => (g.setMi _).ite g _) e
  | busOffRecovery => exact event (fun u g => ((g.setMi _).ite (g.setMi _) _).ite g _) e

/-- So does every step: an idle one moves the timebase alone. -/
theorem step (e : Machine.step s = .next t) : s.KeepsTable t := by
  cases front : s.pending with
  | nil =>
    rw [step_of_pending_nil front] at e
    cases e
    exact tick s
  | cons i rest =>
    rw [step_of_pending_cons front] at e
    have waiting : s.KeepsTable { s with pending := rest } := (refl s).aside
    exact waiting.trans (exec i e)

end State.KeepsTable

end Sys2Proof.Machine

open Sys2Proof Sys2Proof.Machine

/-- Settles O9: every step keeps the holder rule and the order of receipt. -/
theorem holderHasHighestPriority : Obligations.HolderHasHighestPriority := by
  unfold Obligations.HolderHasHighestPriority
  intro s t holders orders e
  have kept := State.KeepsTable.step e
  exact ⟨kept.holders holders, kept.orders orders⟩

/-- Settles O10: every step keeps the auger entry to channel 2's auger state and the auger parameters; that the channel's own
state stays legal is not needed for it. -/
theorem augerEntryFollowsChannelTwo : Obligations.AugerEntryFollowsChannelTwo := by
  unfold Obligations.AugerEntryFollowsChannelTwo
  exact fun s t _ auger e => (State.KeepsTable.step e).auger auger

end

section
/-! Messages that are refused: the sender of a message, and what unknown nodes and fields out of range are answered (R151, R155,
R157, R174, R188, R190). -/

namespace Sys2Proof.Machine

variable {s : State} {node out : Byte} {k : ReqSlot}

/-! ### The sender of a message (R151) -/

/-- The first slot with a property, in slots that stand in the order of their numbers. -/
theorem ReqSlot.find?_of_sorted {p : ReqSlot → Bool} {l : List ReqSlot} (sorted : l.Pairwise (·.num < ·.num)) :
    l.find? p = some k ↔ k ∈ l ∧ p k = true ∧ ∀ j ∈ l, j.num < k.num → p j = false := by
  induction l with
  | nil => simp
  | cons a l ih =>
    obtain ⟨first, rest⟩ := List.pairwise_cons.mp sorted
    rw [List.find?_cons]
    cases here : p a with
    | true =>
      refine ⟨fun found => ?_, fun ⟨member, _, before⟩ => ?_⟩
      · cases found
        refine ⟨List.mem_cons_self, here, fun j member below => ?_⟩
        rcases List.mem_cons.mp member with rfl | member
        · exact absurd below (lt_irrefl _)
        · exact absurd below (lt_asymm (first j member))
      · rcases List.mem_cons.mp member with rfl | member
        · rfl
        · have absent := before a List.mem_cons_self (first k member)
          rw [here] at absent
          cases absent
    | false =>
      refine (ih rest).trans ⟨fun ⟨member, has, before⟩ => ?_, fun ⟨member, has, before⟩ => ?_⟩
      · refine ⟨List.mem_cons_of_mem a member, has, fun j other below => ?_⟩
        rcases List.mem_cons.mp other with rfl | other
        · exact here
        · exact before j other below
      · rcases List.mem_cons.mp member with rfl | member
        · rw [here] at has
          cases has
        · exact ⟨member, has, fun j other => before j (List.mem_cons_of_mem a other)⟩

theorem ReqSlot.all_sorted : ReqSlot.all.Pairwise (·.num < ·.num) := by decide

theorem ReqSlot.mem_all (k : ReqSlot) : k ∈ ReqSlot.all := by cases k <;> decide

/-- The sender is the lowest-numbered slot that stores the node code. -/
theorem State.matchNode_iff : s.matchNode node = some k ↔ node ≠ 0 ∧ s.params.nodeCode.get k = node.toNat ∧
    ∀ j : ReqSlot, j.num < k.num → s.params.nodeCode.get j ≠ node.toNat := by
  unfold State.matchNode
  by_cases zero : node = 0
  · simp [zero]
  · rw [if_neg zero, ReqSlot.find?_of_sorted ReqSlot.all_sorted]
    simp only [ReqSlot.mem_all, true_and, forall_true_left, decide_eq_true_iff, decide_eq_false_iff_not, ne_eq, zero,
      not_false_eq_true]

/-! ### Fields out of range (R155, R190) -/

theorem OutId.ofNat?_none {n : Nat} (high : 2 ≤ n) : OutId.ofNat? n = none := by
  match n with
  | 0 | 1 => omega
  | _ + 2 => rfl

theorem CamId.ofNat?_none {n : Nat} (high : 4 ≤ n) : CamId.ofNat? n = none := by
  match n with
  | 0 | 1 | 2 | 3 => omega
  | _ + 4 => rfl

theorem ChanId.ofNat?_none {n : Nat} (high : 3 ≤ n) : ChanId.ofNat? n = none := by
  match n with
  | 0 | 1 | 2 => omega
  | _ + 3 => rfl

theorem requestedView_none {layout a b : Byte} (bad : 4 ≤ a.toNat ∨ (layout = 1 ∧ 4 ≤ b.toNat)) :
    requestedView layout a b = none := by
  unfold requestedView
  cases camA : CamId.ofNat? a.toNat with
  | none => rfl
  | some c =>
    obtain ⟨split, high⟩ := bad.resolve_left fun high => by
      rw [CamId.ofNat?_none high] at camA
      cases camA
    simp only [if_pos split, CamId.ofNat?_none high, Option.map_none]

/-- The targets are cameras 0–3, channels 8–10 and the device, 15. -/
theorem targetOf_none {b : Byte} (bad : (4 ≤ b.toNat ∧ b.toNat < 8) ∨ (11 ≤ b.toNat ∧ b.toNat ≠ 15)) :
    targetOf b = none := by
  have device : b ≠ 15 := by
    rintro rfl
    exact absurd bad (by decide)
  unfold targetOf
  rw [if_neg device, CamId.ofNat?_none (by omega)]
  dsimp only
  rcases bad with ⟨_, between⟩ | ⟨above, _⟩
  · rw [if_neg (by omega)]
  · rw [if_pos (by omega), ChanId.ofNat?_none (by omega), Option.map_none]

/-- FREEZE and UNFREEZE of an unknown node are answered as the message they are. -/
theorem freezeMessage_unknown {action : Byte} (running : s.held = false) (onBus : s.mi.onBus = true)
    (stranger : s.matchNode node = none) : event (onReceipt (freezeMessage node out action)) s =
      .next (takeHead ((s.setMi s.mi.frameReceived).ask
        (.requestResult node out (freezeWhat action) .unknownRequester))) := by
  unfold freezeMessage
  exact message_unknown running onBus stranger _ _

/-! ### Messages of a known node with such a field -/

section
variable (hears : s.Hears node k)
include hears

theorem viewRequest_badField {layout a b priority : Byte} {hold : Word}
    (bad : OutId.ofNat? out.toNat = none ∨ requestedView layout a b = none) :
    exec (.viewRequest node out layout a b priority hold) s =
      .next (takeHead ((s.heard k).ask (.requestResult node out .request .badField))) := by
  refine (message_known hears _ _).trans ?_
  cases output : OutId.ofNat? out.toNat with
  | none => rfl
  | some o =>
    have view := bad.resolve_left (by rw [output]; nofun)
    simp only [view]
    rfl

theorem viewRelease_badField (bad : OutId.ofNat? out.toNat = none) : exec (.viewRelease node out) s =
    .next (takeHead ((s.heard k).ask (.requestResult node out .release .badField))) := by
  refine (message_known hears _ _).trans ?_
  simp only [bad]
  rfl

theorem freezeMessage_badField {action : Byte}
    (bad : OutId.ofNat? out.toNat = none ∨ (action ≠ 0 ∧ action ≠ 1)) :
    event (onReceipt (freezeMessage node out action)) s =
      .next (takeHead ((s.heard k).ask (.requestResult node out (freezeWhat action) .badField))) := by
  unfold freezeMessage
  refine (message_known hears _ _).trans ?_
  cases output : OutId.ofNat? out.toNat with
  | none => rfl
  | some o =>
    have neither := bad.resolve_left (by rw [output]; nofun)
    simp only [if_pos neither]
    rfl

theorem command_badField {bits : Word} (bad : targetOf out = none) : exec (.command node out bits) s =
    .next (takeHead ((s.heard k).ask (.requestResult node out .command .badField))) := by
  refine (message_known hears _ _).trans ?_
  simp only [bad]
  rfl

end

end Sys2Proof.Machine

open Sys2Proof Sys2Proof.Machine

/-- Settles O34: the match by the order of the slots, the messages of an unknown node one by one, and those of a known node by
the field that is out of range. -/
theorem refusedMessages : Obligations.RefusedMessages := by
  unfold Obligations.RefusedMessages
  intro s node out a3 a4 a5 a6 hold number bits value
  refine ⟨fun k => State.matchNode_iff, fun running onBus stranger => ?_, fun k hears => ?_⟩
  · have refused := message_unknown running onBus stranger
    have freeze (action : Byte) := freezeMessage_unknown (out := out) (action := action) running onBus stranger
    exact ⟨refused _ _, refused _ _, freeze 1, freeze 0, refused _ _, refused _ _, refused _ _, refused _ _⟩
  · refine ⟨fun bad => viewRequest_badField hears (bad.imp OutId.ofNat?_none requestedView_none), fun high => ?_,
      fun bad notFreeze => ?_, fun bad => command_badField hears (targetOf_none bad)⟩
    · have absent := OutId.ofNat?_none high
      exact ⟨viewRelease_badField hears absent, freezeMessage_badField hears (.inl absent)⟩
    · have refused := freezeMessage_badField hears (out := out) (action := a3) (bad.imp OutId.ofNat?_none fun high =>
        ⟨fun zero => absurd (zero ▸ high) (by decide), notFreeze⟩)
      rw [freezeWhat, if_neg notFreeze] at refused
      exact refused

end

section
/-! Inbound frames: which of them are messages, and which message each one is (R152, R186, R187, R200, R201). -/

namespace Sys2Proof.Machine

variable {s : State} {f : CanFrame} {base : Nat}

/-! ### Frames on and off the bus (R200, R201) -/

/-- The work of a frame depends on what it does in the state in which the frame has been received. -/
theorem event_onReceipt_congr {work work' : State → State}
    (same : work (s.setMi s.mi.frameReceived) = work' (s.setMi s.mi.frameReceived)) :
    event (onReceipt work) s = event (onReceipt work') s := by
  unfold event onReceipt
  rw [same]

theorem onReceipt_offBus (off : s.mi.onBus = false) (work : State → State) : onReceipt work s = s := by
  simp [onReceipt, off]

theorem Interface.withErrors_idStrap (mi : Interface) (tx rx : Nat) : (mi.withErrors tx rx).idStrap = mi.idStrap := by
  unfold Interface.withErrors
  split <;> rfl

theorem Interface.frameReceived_base (mi : Interface) : mi.frameReceived.base = mi.base := by
  rw [Interface.base, Interface.base, Interface.frameReceived, Interface.withErrors_idStrap]

/-! ### The kind of a frame (R186, R187) -/

/-- An extended or remote frame, one outside the seven identifiers and an empty one are no message. -/
theorem inboundKind_foreign
    (foreign : f.extended = true ∨ f.remote = true ∨ f.ident < base ∨ base + 6 < f.ident ∨ f.data = []) :
    inboundKind base f = none := by
  unfold inboundKind
  split
  next => rfl
  next plain =>
    simp only [Bool.or_eq_true, decide_eq_true_iff, not_or] at plain
    obtain ⟨⟨notExtended, notRemote⟩, notBelow⟩ := plain
    rcases foreign with extended | remote | below | above | empty
    · exact absurd extended notExtended
    · exact absurd remote notRemote
    · exact absurd below notBelow
    · have none : InKind.all[f.ident - base]? = none :=
        List.getElem?_eq_none (by rw [show InKind.all.length = 7 from rfl]; omega)
      rw [none]
    · split
      · rfl
      · rename_i kind _
        rw [empty, if_neg (by cases kind <;> decide)]

section
variable {i : Nat} {kind : InKind} (ident : f.ident = base + i) (named : InKind.all[i]? = some kind)
include ident named

/-- A frame shorter than the kind its identifier names is no message. -/
theorem inboundKind_short (short : f.data.length < kind.length) : inboundKind base f = none := by
  unfold inboundKind
  split
  · rfl
  · rw [ident, Nat.add_sub_cancel_left, named]
    exact if_neg (by omega)

/-- Every other frame is the message that its identifier names. -/
theorem inboundKind_message (standard : f.extended = false) (data : f.remote = false)
    (long : kind.length ≤ f.data.length) : inboundKind base f = some kind := by
  have kept : ¬((f.extended || f.remote || decide (f.ident < base)) = true) := by
    simp [standard, data, ident]
  unfold inboundKind
  rw [if_neg kept, ident, Nat.add_sub_cancel_left, named]
  exact if_pos long

end

/-! ### CAN_FRAME_IGNORED (R187, R200) -/

theorem canFrameIgnored_reaches_none (running : s.held = false) (onBus : s.mi.onBus = true)
    (none : inboundKind s.mi.base f = none) :
    exec (.canFrameIgnored f) s = .next (takeHead (s.setMi s.mi.frameReceived)) := by
  refine (event_running running _).trans ?_
  rw [onReceipt_onBus onBus, takeFrame, State.setMi_mi, Interface.frameReceived_base, none]

/-- A frame that is a message acts as that message. -/
theorem canFrameIgnored_delivers {kind : InKind} (message : inboundKind s.mi.base f = some kind) :
    exec (.canFrameIgnored f) s = event (onReceipt (deliver kind f)) s := by
  refine event_onReceipt_congr ?_
  rw [takeFrame, State.setMi_mi, Interface.frameReceived_base, message]

end Sys2Proof.Machine

open Sys2Proof Sys2Proof.Machine

/-- Settles O60: the frames that are no message, and the seven kinds. -/
theorem inboundFrames : Obligations.InboundFrames := by
  unfold Obligations.InboundFrames
  intro s f running base received ignored byte word is
  have message {i length : Nat} (kind : InKind) (named : InKind.all[i]? = some kind) (long : kind.length = length)
      (frame : is i length) : ignored = event (onReceipt (deliver kind f)) s := by
    obtain ⟨standard, data, ident, enough⟩ := frame
    exact canFrameIgnored_delivers (inboundKind_message ident named standard data (long ▸ enough))
  refine ⟨fun node k hears => message_known hears _ _,
    fun onBus foreign => canFrameIgnored_reaches_none running onBus (inboundKind_foreign foreign),
    fun i n onBus kind ident short => ?_, message .viewRequest rfl rfl, message .viewRelease rfl rfl, fun frame => ?_,
    message .paramWrite rfl rfl, message .paramRead rfl rfl, message .command rfl rfl, message .keepalive rfl rfl,
    fun off => ?_⟩
  · have named : ∃ kind, InKind.all[i]? = some kind ∧ kind.length = n := by
      simp only [List.mem_cons, Prod.mk.injEq, List.not_mem_nil, or_false] at kind
      rcases kind with ⟨rfl, rfl⟩ | ⟨rfl, rfl⟩ | ⟨rfl, rfl⟩ | ⟨rfl, rfl⟩ | ⟨rfl, rfl⟩ | ⟨rfl, rfl⟩ | ⟨rfl, rfl⟩ <;>
        exact ⟨_, rfl, rfl⟩
    obtain ⟨kind, named, length⟩ := named
    exact canFrameIgnored_reaches_none running onBus (inboundKind_short ident named (length ▸ short))
  · rw [message .freeze rfl rfl frame]
    split
    next freeze =>
      refine event_onReceipt_congr ?_
      rw [deliver, show frameByte f 2 = 1 from freeze]
      rfl
    next => rfl
  · refine (event_running running _).trans ?_
    rw [onReceipt_offBus off]

end

section
/-! Requests made, released and run out: an entry received or removed on one output, with its arbitration, and what the arbiter
keeps beside (R154–R166). -/

namespace Sys2Proof.Machine

variable {s : State} {o : OutId} {r : Requester}

theorem OutId.other_ne (o : OutId) : o.other ≠ o := by cases o <;> decide

/-! ### What an entry received or removed leaves of the arbiter -/

theorem State.receive_arbiter (s : State) (o : OutId) (r : Requester) (v : View) (p hold : Nat) :
    (s.receive o r v p hold).arbiter =
      { s.arbiter with
        receipts := s.arbiter.receipts + 1
        table := (s.receive o r v p hold).arbiter.table, outs := (s.receive o r v p hold).arbiter.outs } := by
  rw [State.receive_eq]
  have arbitrates := State.Arbitrates.afterReceipt
    (s.setArbiter (s.received o r ⟨v, p, hold, s.timebase, s.arbiter.receipts + 1⟩)) o r
    ⟨v, p, hold, s.timebase, s.arbiter.receipts + 1⟩
  rw [arbitrates.outsAlone]
  rfl

theorem State.remove_arbiter (s : State) (o : OutId) (r : Requester) : (s.remove o r).arbiter =
    { s.arbiter with table := (s.remove o r).arbiter.table, outs := (s.remove o r).arbiter.outs } := by
  cases present : s.entry? o r with
  | none => rw [State.remove_absent present]
  | some e =>
    rw [State.remove_present present, (State.Arbitrates.afterRemoval (s.setArbiter (s.removed o r)) o r).outsAlone]
    rfl

/-! ### VIEW REQUEST (R155, R156) -/

/-- SPLIT shows both cameras, every other layout camera A alone. -/
theorem requestedView_some {layout a b : Byte} {v : View}
    (shows : (∃ ca, layout ≠ 1 ∧ CamId.ofNat? a.toNat = some ca ∧ v = .full ca) ∨
      ∃ ca cb, layout = 1 ∧ CamId.ofNat? a.toNat = some ca ∧ CamId.ofNat? b.toNat = some cb ∧ v = .split ca cb) :
    requestedView layout a b = some v := by
  unfold requestedView
  rcases shows with ⟨ca, full, camA, rfl⟩ | ⟨ca, cb, split, camA, camB, rfl⟩
  · simp only [camA, if_neg full]
  · simp only [camA, camB, if_pos split, Option.map_some]

/-- GRANTED tells the holder, CLAMPED another whose priority or hold was changed. -/
theorem requestResult_eq {holder clamped : Bool} {p q : Prop} [Decidable p] [Decidable q] (holds : holder = true ↔ p)
    (changed : clamped = true ↔ q) :
    requestResult holder clamped = if p then Result.granted else if q then .clamped else .waiting := by
  unfold requestResult
  simp only [holds, changed]

/-! ### Entries that run out (R166) -/

theorem Entry.expired_iff {e : Entry} {now : Time} :
    e.expired now = true ↔ 0 < e.hold ∧ e.hold * 1000 ≤ (now - e.receipt).toNat := by
  rw [Entry.expired, Bool.and_eq_true, decide_eq_true_iff, due_iff]

section
variable (running : s.held = false)
include running

theorem timedExpiry_absent (absent : s.entry? o r = none) : exec (.timedExpiry r o) s = .next (takeHead s) := by
  change execTimedExpiry r o s = _
  rw [execTimedExpiry, event_running running, absent]

theorem timedExpiry_present {e : Entry} (present : s.entry? o r = some e) :
    exec (.timedExpiry r o) s = .next (takeHead (if e.expired s.timebase then s.remove o r else s)) := by
  change execTimedExpiry r o s = _
  rw [execTimedExpiry, event_running running, present]

end

end Sys2Proof.Machine

open Sys2Proof Sys2Proof.Machine

/-- Settles O46: the request is a receipt of the clamped entry, and its answer reads the holder it leaves. -/
theorem viewRequests : Obligations.ViewRequests := by
  unfold Obligations.ViewRequests
  intro s node out layout a b priority hold k o v hears holders orders copies output shows u p h
  refine ⟨u.receive o (.master k) v p h, (State.ViewFrame.refl u).receive _ _ _ _ _,
    State.receive_made (s := u) (holders o) copies (orders o).1 (orders o).2 _ v p h, State.receive_other u o _ v p h,
    State.receive_arbiter u o _ v p h, (message_known hears _ _).trans ?_⟩
  simp only [output, requestedView_some shows]
  refine congrArg (fun result => Host.Outcome.next (takeHead (State.ask _ (.requestResult node out .request result)))) ?_
  exact requestResult_eq (decide_eq_true_iff) (by simp only [Bool.or_eq_true, decide_eq_true_iff]; exact Iff.rfl)

/-- Settles O47: both are the removal of one entry, the first by its requester's message, the second once its hold has
passed. -/
theorem entriesEnd : Obligations.EntriesEnd := by
  unfold Obligations.EntriesEnd
  intro s o holders orders copies left
  have removes {u : State} {r : Requester} (copies : u.CopiesOk)
      (late : ∀ q e, u.entry? o q = some e → e.order ≤ u.arbiter.receipts) {e : Entry} (present : u.entry? o r = some e) :
      left u (u.remove o r) r :=
    ⟨(State.ViewFrame.refl u).remove o r, State.remove_left copies late present,
      (State.remove_aside copies (OutId.other_ne o)).1.alone, State.remove_arbiter u o r⟩
  refine ⟨fun node out k hears output => ⟨fun absent => ?_, fun present => ?_⟩, fun r running =>
    ⟨timedExpiry_absent running, fun e present => ⟨fun stays => ?_, fun timed passed => ?_⟩⟩⟩
  · refine (message_known hears _ _).trans ?_
    have absent' : (s.heard k).entry? o (.master k) = none := absent
    simp only [output, absent']
    rfl
  · obtain ⟨e, entry⟩ := Option.isSome_iff_exists.mp present
    have entry' : (s.heard k).entry? o (.master k) = some e := entry
    refine ⟨_, removes (u := s.heard k) copies (orders o).1 entry', (message_known hears _ _).trans ?_⟩
    simp only [output, entry']
    rfl
  · rw [timedExpiry_present running present, if_neg (mt Entry.expired_iff.mp (by omega))]
  · exact ⟨_, removes copies (orders o).1 present,
      by rw [timedExpiry_present running present, if_pos (Entry.expired_iff.mpr ⟨timed, passed⟩)]⟩

end

section
/-! The two outputs in their turns: an operation that arbitrates output A and then output B acts on each as it would alone; and
the end of a dwell (R161, R162). -/

namespace Sys2Proof.Machine

variable {s t u : State} {o : OutId} {r : Requester}

/-! ### Two turns -/

/-- Nothing happens to an output from one state to the next and on to a third. -/
theorem State.Aside.trans (h : s.Aside t o) (g : t.Aside u o) : s.Aside u o where
  requests := g.requests.trans h.requests
  outGrant := g.outGrant.trans h.outGrant
  output := g.output.trans h.output
  receipts := g.receipts.trans h.receipts
  timebase := g.timebase.trans h.timebase
  params := g.params.trans h.params
  mi := h.mi.trans g.mi
  clear free := g.clear (h.clear free)

/-- Entries of an output aside are no later than the latest receipt. -/
theorem State.Aside.late (h : s.Aside u o) (late : ∀ q e, s.entry? o q = some e → e.order ≤ s.arbiter.receipts) :
    ∀ q e, u.entry? o q = some e → e.order ≤ u.arbiter.receipts := by
  intro q e entry
  rw [h.receipts]
  exact late q e ((h.entry? q).symm.trans entry)

/-- The operation leaves the other output aside, and the copies in order. -/
def TurnsAside (turn : State → OutId → State) : Prop :=
  ∀ (u : State) (p q : OutId), u.CopiesOk → q ≠ p → u.Aside (turn u p) q ∧ (turn u p).CopiesOk

/-- What an output's own turn brings about, seen from before the turns, holds after both. -/
theorem TurnsAside.both {turn : State → OutId → State} (aside : TurnsAside turn) (copies : s.CopiesOk) {P : State → Prop}
    (after : ∀ {t v : State}, P t → t.Aside v o → P v) (own : ∀ u, s.Aside u o → u.CopiesOk → P (turn u o)) :
    P (turn (turn s .a) .b) := by
  obtain ⟨asideB, copies'⟩ := aside s .a .b copies (by decide)
  cases o with
  | a => exact after (own s (.refl s .a) copies) (aside _ .b .a copies' (by decide)).1
  | b => exact own _ asideB copies'

/-- Arbitration of one output is such a turn. -/
theorem State.Arbitrates.turnsAside {turn : State → OutId → State} (h : ∀ (u : State) (p : OutId), u.Arbitrates (turn u p) p) :
    TurnsAside turn := fun u p _ copies other =>
  ⟨State.Regrants.aside (a := u.arbiter) (h u p).toRegrants copies other rfl rfl rfl, ((h u p).copies copies).1⟩

theorem State.remove_turnsAside (r : Requester) : TurnsAside (fun u p => u.remove p r) :=
  fun _ _ _ copies other => State.remove_aside copies other

/-! ### The end of a dwell (R161, R162) -/

/-- Between `s` and `t` the dwell of output `o` ended: its candidate was granted the output, or the dwell is ELAPSED. -/
def State.Elapses (s t : State) (o : OutId) : Prop :=
  (∀ r, (s.outGrant o).candidate = some r → s.GrantedTo t o r) ∧
    ((s.outGrant o).candidate = none →
      t.outGrant o = { s.outGrant o with dwellRunning := false } ∧ t.output o = s.output o)

theorem State.Elapses.after (h : s.Elapses t o) (later : t.Aside u o) : s.Elapses u o := by
  obtain ⟨granted, ended⟩ := h
  refine ⟨fun r candidate => (granted r candidate).after later, fun none => ?_⟩
  obtain ⟨outGrant, output⟩ := ended none
  exact ⟨later.outGrant.trans outGrant, later.output.trans output⟩

theorem State.Elapses.before (h : u.Elapses t o) (earlier : s.Aside u o) : s.Elapses t o := by
  unfold State.Elapses State.GrantedTo at h ⊢
  rw [earlier.outGrant, earlier.output] at h
  exact ⟨fun r candidate => (h.1 r candidate).before earlier, h.2⟩

/-- A candidate has an entry. -/
theorem HolderOk.candidate_entry {t : Requests} {g : OutGrant} (h : HolderOk t g) (candidate : g.candidate = some r) :
    ∃ e, t.get r = some e := by
  unfold HolderOk at h
  split at h
  · rw [h.2] at candidate
    cases candidate
  · obtain ⟨_, _, _, candidates⟩ := h
    exact (candidates r candidate).imp fun e found => found.1

theorem State.dwellElapsed_elapses (holder : HolderOk (s.requests o) (s.outGrant o)) (copies : s.CopiesOk)
    (late : ∀ q e, s.entry? o q = some e → e.order ≤ s.arbiter.receipts) : s.Elapses (s.dwellElapsed o) o := by
  unfold State.dwellElapsed
  refine ⟨fun r candidate => ?_, fun absent => ?_⟩
  · obtain ⟨e, entry⟩ := holder.candidate_entry candidate
    rw [candidate]
    exact State.grantTo_granted (a := s.arbiter) rfl copies (le_refl _) late entry
  · rw [absent]
    exact ⟨State.setOutGrant_outGrant s o _, rfl⟩

/-- DWELL ms have passed since the grant time of output `o`. -/
def State.DwellPassed (s : State) (o : OutId) : Prop :=
  s.params.dwell * 1000 ≤ (s.timebase - (s.outGrant o).grantTime).toNat

theorem State.DwellPassed.aside (h : s.Aside u o) : u.DwellPassed o ↔ s.DwellPassed o := by
  unfold State.DwellPassed
  rw [h.params, h.timebase, h.outGrant]

theorem State.dwellWritten_passed (passed : s.DwellPassed o) : s.dwellWritten o = s.dwellElapsed o :=
  if_pos (due_iff.mpr passed)

theorem State.dwellWritten_vacant (short : ¬s.DwellPassed o) (vacant : (s.outGrant o).holder = none) :
    s.dwellWritten o = s :=
  (if_neg (mt due_iff.mp short)).trans (if_neg (by simp [vacant]))

theorem State.dwellWritten_held (short : ¬s.DwellPassed o) (held : (s.outGrant o).holder.isSome = true) :
    s.dwellWritten o = s.setOutGrant o { s.outGrant o with dwellRunning := true } :=
  (if_neg (mt due_iff.mp short)).trans (if_pos held)

theorem State.dwellOver_iff : s.dwellOver o = true ↔ (s.outGrant o).dwellRunning = true ∧ s.DwellPassed o := by
  rw [State.dwellOver, Bool.and_eq_true, due_iff, State.DwellPassed]

theorem dwellExpiry_running (running : s.held = false) :
    exec (.dwellExpiry o) s = .next (takeHead (if s.dwellOver o then s.dwellElapsed o else s)) := by
  change execDwellExpiry o s = _
  rw [execDwellExpiry, event_running running]

/-! ### A write of DWELL on both outputs -/

/-- A parameter that SETUP does not guard is taken unless its channel is enabled. -/
theorem State.takes_unguarded {id : ParamId} (unguarded : id.guarded = false) (free : s.refusesBusy id = false) :
    s.Takes id := ⟨fun guarded => Bool.noConfusion (unguarded.symm.trans guarded), free⟩

theorem State.dwellWritten_both (copies : s.CopiesOk) {P : State → Prop}
    (after : ∀ {t v : State}, P t → t.Aside v o → P v)
    (own : ∀ u, s.Aside u o → u.CopiesOk → P (u.dwellWritten o)) : P ((s.dwellWritten .a).dwellWritten .b) :=
  TurnsAside.both (turn := State.dwellWritten) (State.Arbitrates.turnsAside State.Arbitrates.dwellWritten) copies after own

theorem State.dwellWritten_both_arbiter (s : State) : ((s.dwellWritten .a).dwellWritten .b).arbiter =
    { s.arbiter with outs := ((s.dwellWritten .a).dwellWritten .b).arbiter.outs } := by
  rw [(State.Arbitrates.dwellWritten (s.dwellWritten .a) .b).outsAlone, (State.Arbitrates.dwellWritten s .a).outsAlone]

end Sys2Proof.Machine

open Sys2Proof Sys2Proof.Machine

/-- Settles O49: the expiry ends the dwell of its output; a write takes the outputs in turn, and each by the time passed. -/
theorem dwellEnds : Obligations.DwellEnds := by
  unfold Obligations.DwellEnds
  intro s holders orders copies passed elapses framed
  refine ⟨fun o running => ⟨fun dwelling ended => ?_, fun stays => ?_⟩, fun node k value hears => ?_⟩
  · have arbitrates := State.Arbitrates.dwellElapsed s o
    have aside := (State.Arbitrates.turnsAside State.Arbitrates.dwellElapsed s o o.other copies (OutId.other_ne o)).1
    exact ⟨_, by rw [dwellExpiry_running running, if_pos (State.dwellOver_iff.mpr ⟨dwelling, ended⟩)],
      ⟨arbitrates.view, arbitrates.outsAlone⟩, State.dwellElapsed_elapses (holders o) copies (orders o).1, aside.alone⟩
  · rw [dwellExpiry_running running, if_neg]
    intro ends
    obtain ⟨dwelling, ended⟩ := State.dwellOver_iff.mp ends
    exact stays.elim (fun idle => Bool.noConfusion (idle.symm.trans dwelling)) (· ended)
  · intro u ms
    refine ⟨rfl, _, param_known hears (State.takes_unguarded rfl rfl) value,
      ⟨((State.ViewFrame.refl u).dwellWritten .a).dwellWritten .b, State.dwellWritten_both_arbiter u⟩, fun o =>
      ⟨fun ends => ?_, fun short vacant => ?_, fun short held => ?_⟩⟩
    · refine State.dwellWritten_both (s := u) (P := (u.Elapses · o)) copies State.Elapses.after fun w earlier copies' => ?_
      rw [State.dwellWritten_passed ((State.DwellPassed.aside earlier).mpr ends)]
      refine (State.dwellElapsed_elapses ?_ copies' (earlier.late (orders o).1)).before earlier
      rw [earlier.requests, earlier.outGrant]
      exact holders o
    · refine State.dwellWritten_both (s := u) (P := (u.OutputAlone · o)) copies (fun h later => h.trans later.alone)
        fun w earlier copies' => ?_
      rw [State.dwellWritten_vacant (mt (State.DwellPassed.aside earlier).mp short) (by rw [earlier.outGrant]; exact vacant)]
      exact earlier.alone
    · refine State.dwellWritten_both (s := u) (o := o) (P := fun t => t.requests o = u.requests o ∧
          t.outGrant o = { u.outGrant o with dwellRunning := true } ∧ t.output o = u.output o) copies
        (fun revived later => ?_) fun w earlier copies' => ?_
      · obtain ⟨requests, outGrant, output⟩ := revived
        exact ⟨later.requests.trans requests, later.outGrant.trans outGrant, later.output.trans output⟩
      rw [State.dwellWritten_held (mt (State.DwellPassed.aside earlier).mp short) (by rw [earlier.outGrant]; exact held)]
      exact ⟨earlier.requests, by rw [State.setOutGrant_outGrant, earlier.outGrant], earlier.output⟩

end

section
/-! Writes to a requester slot: its entries removed by a changed node code, or lowered by a lowered maximum (R153). -/

namespace Sys2Proof.Machine

variable {s t u : State} {o : OutId} {r : Requester} {k : ReqSlot} {e : Entry} {n : Nat}

/-- An output of state `s` granted to the best of the entries that the table has moved on to. -/
theorem State.grantBest_granted {a : Arbiter} (outs : a.outs = s.arbiter.outs) (copies : s.CopiesOk)
    (received : s.arbiter.receipts ≤ a.receipts)
    (late : ∀ q e, (a.table.get o).get q = some e → e.order ≤ a.receipts) (entry : (s.setArbiter a).entry? o r = some e) :
    ∃ h, ((s.setArbiter a).grantBest o).Best o h ∧ s.GrantedTo ((s.setArbiter a).grantBest o) o h := by
  obtain ⟨b, best⟩ := State.exists_best entry
  obtain ⟨found, ranks⟩ := State.best_of_bestOf best
  refine ⟨b.1, ranks.of_table (State.Arbitrates.grantBest _ o).table, ?_⟩
  rw [State.grantBest_some best]
  exact State.grantTo_granted outs copies received late found

/-! ### What a stored value sets off -/

theorem clamp_toNat_cast {v lo hi : Int} (low : 0 ≤ lo) (range : lo ≤ hi) : ((clamp v lo hi).toNat : Int) = clamp v lo hi :=
  Int.toNat_of_nonneg (le_trans low (clamp_bounds v lo hi range).1)

section
variable {v : Int} {j : ReqSlot}

theorem Params.read_nodeCode_eq_fit {p : Params} :
    p.read (.nodeCode j) = p.fit (.nodeCode j) v ↔ (clamp v 0 254).toNat = p.nodeCode.get j := by
  rw [← Int.natCast_inj, clamp_toNat_cast (by decide) (by decide)]
  exact eq_comm

theorem Params.fit_lt_read_maxPriority {p : Params} :
    p.fit (.maxPriority j) v < p.read (.maxPriority j) ↔ (clamp v 1 7).toNat < p.maxPriority.get j := by
  rw [← Int.ofNat_lt, clamp_toNat_cast (by decide) (by decide)]
  exact Iff.rfl

theorem State.storeParam_nodeCode_same (same : (clamp v 0 254).toNat = s.params.nodeCode.get j) :
    s.storeParam (.nodeCode j) v = s.stored (.nodeCode j) v :=
  if_pos (Params.read_nodeCode_eq_fit.mpr same)

theorem State.storeParam_nodeCode_changed (changed : (clamp v 0 254).toNat ≠ s.params.nodeCode.get j) :
    s.storeParam (.nodeCode j) v = (s.stored (.nodeCode j) v).nodeCodeChanged j :=
  if_neg (mt Params.read_nodeCode_eq_fit.mp changed)

theorem State.storeParam_maxPriority_lowered (low : (clamp v 1 7).toNat < s.params.maxPriority.get j) :
    s.storeParam (.maxPriority j) v = (s.stored (.maxPriority j) v).maxPriorityLowered j (clamp v 1 7).toNat :=
  if_pos (Params.fit_lt_read_maxPriority.mpr low)

theorem State.storeParam_maxPriority_kept (high : s.params.maxPriority.get j ≤ (clamp v 1 7).toNat) :
    s.storeParam (.maxPriority j) v = s.stored (.maxPriority j) v :=
  if_neg (mt Params.fit_lt_read_maxPriority.mp (Nat.not_lt.mpr high))

end

/-! ### A changed node code -/

/-- A requester's entries removed from both outputs. -/
theorem State.removeBoth_at (copies : s.CopiesOk) (orders : s.OrdersOk) (r : Requester) (o : OutId) :
    ((s.entry? o r).isSome = true → s.EntryLeft ((s.remove .a r).remove .b r) o r) ∧
    (s.entry? o r = none → s.OutputAlone ((s.remove .a r).remove .b r) o) := by
  have turns := State.remove_turnsAside r
  refine ⟨fun present => ?_, fun absent => ?_⟩
  · refine turns.both (P := (s.EntryLeft · o r)) copies State.EntryLeft.after fun w earlier copies' => ?_
    rw [← earlier.entry? r] at present
    exact ((State.remove_at copies' (earlier.late (orders o).1)).2 present).before earlier
  · refine turns.both (P := (s.OutputAlone · o)) copies (fun h later => h.trans later.alone) fun w earlier copies' => ?_
    rw [← earlier.entry? r] at absent
    exact earlier.alone.trans ((State.remove_at copies' (earlier.late (orders o).1)).1 absent)

theorem State.nodeCodeChanged_eq (s : State) (k : ReqSlot) : s.nodeCodeChanged k =
    (let w := (s.remove .a (.master k)).remove .b (.master k)
     w.setArbiter { w.arbiter with lastHeard := w.arbiter.lastHeard.set k none }) := rfl

/-- The outputs know nothing of the time a requester was last heard. -/
theorem State.lastHeard_aside (s : State) (o : OutId) (heard : PerReq (Option Time)) :
    s.Aside (s.setArbiter { s.arbiter with lastHeard := heard }) o :=
  ⟨rfl, rfl, rfl, rfl, rfl, rfl, .refl _, id⟩

theorem State.nodeCodeChanged_at (copies : s.CopiesOk) (orders : s.OrdersOk) (k : ReqSlot) (o : OutId) :
    ((s.entry? o (.master k)).isSome = true → s.EntryLeft (s.nodeCodeChanged k) o (.master k)) ∧
    (s.entry? o (.master k) = none → s.OutputAlone (s.nodeCodeChanged k) o) := by
  rw [State.nodeCodeChanged_eq]
  have later := State.lastHeard_aside ((s.remove .a (.master k)).remove .b (.master k)) o
  obtain ⟨left, alone⟩ := State.removeBoth_at copies orders (.master k) o
  exact ⟨fun present => (left present).after (later _), fun absent => (alone absent).trans (later _).alone⟩

theorem State.nodeCodeChanged_arbiter (s : State) (k : ReqSlot) : (s.nodeCodeChanged k).arbiter =
    { s.arbiter with
      lastHeard := s.arbiter.lastHeard.set k none
      table := (s.nodeCodeChanged k).arbiter.table, outs := (s.nodeCodeChanged k).arbiter.outs } := by
  rw [State.nodeCodeChanged_eq, State.setArbiter_arbiter, State.remove_arbiter (s.remove .a (.master k)),
    State.remove_arbiter s]

/-! ### A lowered maximum -/

/-- Between `s` and `t` entry `e` of requester `r` for output `o` was lowered to priority `n`: a holder below another entry loses
the output to the best, one that stays keeps its grant with VIEW STATUS asked for. -/
def State.EntryLowered (s t : State) (o : OutId) (r : Requester) (e : Entry) (n : Nat) : Prop :=
  let above : Prop := ∃ q e', q ≠ r ∧ s.entry? o q = some e' ∧ n < e'.priority
  (∀ q, t.entry? o q = if q = r then some { e with priority := n } else s.entry? o q) ∧
    ((s.outGrant o).holder ≠ some r → s.GrantKept t o) ∧
    ((s.outGrant o).holder = some r → ¬above → s.GrantKept t o ∧ s.AskedFor t (.viewStatus o)) ∧
    ((s.outGrant o).holder = some r → above → ∃ h, t.Best o h ∧ s.GrantedTo t o h)

theorem State.EntryLowered.after (h : s.EntryLowered t o r e n) (later : t.Aside u o) : s.EntryLowered u o r e n := by
  obtain ⟨entries, other, stays, falls⟩ := h
  refine ⟨fun q => (later.entry? q).trans (entries q), fun notHolder => (other notHolder).after later,
    fun holder top => ?_, fun holder above => ?_⟩
  · obtain ⟨kept, asked⟩ := stays holder top
    exact ⟨kept.after later, asked.after later.mi⟩
  · obtain ⟨h, best, granted⟩ := falls holder above
    exact ⟨h, best.after later, granted.after later⟩

theorem State.EntryLowered.before (h : u.EntryLowered t o r e n) (earlier : s.Aside u o) : s.EntryLowered t o r e n := by
  unfold State.EntryLowered State.GrantedTo at h ⊢
  simp only [earlier.entry?, earlier.outGrant] at h
  obtain ⟨entries, other, stays, falls⟩ := h
  refine ⟨entries, fun notHolder => (other notHolder).before earlier, fun holder top => ?_, fun holder above => ?_⟩
  · obtain ⟨kept, asked⟩ := stays holder top
    exact ⟨kept.before earlier, asked.before earlier.mi⟩
  · obtain ⟨h, best, granted⟩ := falls holder above
    exact ⟨h, best, granted.before earlier⟩

/-- The arbiter with entry `e` of requester `r` for output `o` at priority `n`. -/
def State.lowered (s : State) (o : OutId) (r : Requester) (e : Entry) (n : Nat) : Arbiter :=
  { s.arbiter with table := s.arbiter.table.set o ((s.requests o).set r (some { e with priority := n })) }

theorem State.lowered_entry (s : State) (o : OutId) (r q : Requester) (e : Entry) (n : Nat) :
    (s.setArbiter (s.lowered o r e n)).entry? o q = if q = r then some { e with priority := n } else s.entry? o q := by
  refine (State.setEntry_entry s o r (some { e with priority := n }) o q).trans ?_
  simp only [true_and]

/-- An entry within the maximum, and no entry, stays. -/
theorem State.lowerEntry_low (low : ∀ e, s.entry? o (.master k) = some e → e.priority ≤ n) : s.lowerEntry k n o = s := by
  unfold State.lowerEntry
  split
  · rfl
  next e entry => exact if_neg (Nat.not_lt.mpr (low e entry))

theorem State.lowerEntry_high (entry : s.entry? o (.master k) = some e) (high : n < e.priority) : s.lowerEntry k n o =
    (s.setArbiter (s.lowered o (.master k) e n)).afterLowering o (.master k) { e with priority := n } := by
  unfold State.lowerEntry
  rw [entry]
  exact if_pos high

theorem State.afterLowering_other (other : (s.outGrant o).holder ≠ some r) : s.afterLowering o r e = s.formCandidate o :=
  if_neg other

section
variable (holder : (s.outGrant o).holder = some r)
include holder

theorem State.afterLowering_top (top : ∀ q e', q ≠ r → s.entry? o q = some e' → e'.priority ≤ e.priority) :
    s.afterLowering o r e = (s.ask (.viewStatus o)).formCandidate o :=
  (if_pos holder).trans (if_pos (Requests.othersPriority_le_iff.mpr top))

theorem State.afterLowering_below {q : Requester} {e' : Entry} (other : q ≠ r) (entry : s.entry? o q = some e')
    (above : e.priority < e'.priority) : s.afterLowering o r e = s.grantBest o :=
  (if_pos holder).trans
    (if_neg fun top => absurd (Requests.othersPriority_le_iff.mp top q e' other entry) (Nat.not_le.mpr above))

end

theorem State.lowerEntry_lowered (copies : s.CopiesOk)
    (late : ∀ q e, s.entry? o q = some e → e.order ≤ s.arbiter.receipts) (entry : s.entry? o (.master k) = some e)
    (high : n < e.priority) : s.EntryLowered (s.lowerEntry k n o) o (.master k) e n := by
  rw [State.lowerEntry_high entry high]
  have entries (q : Requester) := s.lowered_entry o (.master k) q e n
  have others {q : Requester} (other : q ≠ .master k) := (entries q).trans (if_neg other)
  have table := State.Arbitrates.afterLowering (s.setArbiter (s.lowered o (.master k) e n)) o (.master k)
    { e with priority := n }
  refine ⟨fun q => (table.entry? o q).trans (entries q), fun notHolder => ?_, fun holder top => ?_,
    fun holder ⟨q, e', other, found, above⟩ => ?_⟩
  · rw [State.afterLowering_other (s := s.setArbiter (s.lowered o _ e n)) notHolder]
    exact ⟨State.setOutGrant_outGrant _ o _, rfl⟩
  · rw [State.afterLowering_top (s := s.setArbiter (s.lowered o _ e n)) holder fun q e' other found =>
      Nat.not_lt.mp fun above => top ⟨q, e', other, (others other).symm.trans found, above⟩]
    exact ⟨⟨State.setOutGrant_outGrant _ o _, rfl⟩, [.viewStatus o], List.mem_singleton_self _, rfl⟩
  · rw [State.afterLowering_below (s := s.setArbiter (s.lowered o _ e n)) holder other ((others other).trans found) above]
    refine State.grantBest_granted (a := s.lowered o (.master k) e n) rfl copies (le_refl _) (fun p e'' placed => ?_)
      ((entries (.master k)).trans (if_pos rfl))
    have before := (entries p).symm.trans placed
    split at before
    · cases before
      exact late _ e entry
    · exact late p e'' before

theorem State.lowerEntry_turnsAside (k : ReqSlot) (n : Nat) : TurnsAside (fun u p => u.lowerEntry k n p) := by
  intro u p q copies other
  by_cases low : ∀ e, u.entry? p (.master k) = some e → e.priority ≤ n
  · simp only [State.lowerEntry_low low]
    exact ⟨.refl u q, copies⟩
  · push Not at low
    obtain ⟨e, entry, high⟩ := low
    simp only [State.lowerEntry_high entry high]
    have arbitrates := State.Arbitrates.afterLowering (u.setArbiter (u.lowered p (.master k) e n)) p (.master k)
      { e with priority := n }
    exact ⟨State.Regrants.aside arbitrates.toRegrants copies other ((PerOut.get_set _ _ _ _).trans (if_neg other)) rfl rfl,
      (arbitrates.copies copies).1⟩

theorem State.lowerEntry_arbiter (s : State) (k : ReqSlot) (n : Nat) (o : OutId) : (s.lowerEntry k n o).arbiter =
    { s.arbiter with table := (s.lowerEntry k n o).arbiter.table, outs := (s.lowerEntry k n o).arbiter.outs } := by
  by_cases low : ∀ e, s.entry? o (.master k) = some e → e.priority ≤ n
  · rw [State.lowerEntry_low low]
  · push Not at low
    obtain ⟨e, entry, high⟩ := low
    rw [State.lowerEntry_high entry high, (State.Arbitrates.afterLowering _ o (.master k) _).outsAlone]
    rfl

theorem State.maxPriorityLowered_eq (s : State) (k : ReqSlot) (n : Nat) :
    s.maxPriorityLowered k n = (s.lowerEntry k n .a).lowerEntry k n .b := rfl

theorem State.maxPriorityLowered_at (copies : s.CopiesOk) (orders : s.OrdersOk) (k : ReqSlot) (n : Nat) (o : OutId) :
    ((∀ e, s.entry? o (.master k) = some e → e.priority ≤ n) → s.OutputAlone (s.maxPriorityLowered k n) o) ∧
    ∀ e, s.entry? o (.master k) = some e → n < e.priority →
      s.EntryLowered (s.maxPriorityLowered k n) o (.master k) e n := by
  have turns := State.lowerEntry_turnsAside k n
  refine ⟨fun low => ?_, fun e entry high => ?_⟩
  · refine turns.both (P := (s.OutputAlone · o)) copies (fun h later => h.trans later.alone) fun w earlier copies' => ?_
    rw [← earlier.entry?] at low
    rw [State.lowerEntry_low low]
    exact earlier.alone
  · refine turns.both (P := (s.EntryLowered · o (.master k) e n)) copies State.EntryLowered.after fun w earlier copies' => ?_
    rw [← earlier.entry?] at entry
    exact (State.lowerEntry_lowered copies' (earlier.late (orders o).1) entry high).before earlier

theorem State.maxPriorityLowered_arbiter (s : State) (k : ReqSlot) (n : Nat) : (s.maxPriorityLowered k n).arbiter =
    { s.arbiter with
      table := (s.maxPriorityLowered k n).arbiter.table, outs := (s.maxPriorityLowered k n).arbiter.outs } := by
  rw [State.maxPriorityLowered_eq, State.lowerEntry_arbiter (s.lowerEntry k n .a), State.lowerEntry_arbiter s]

end Sys2Proof.Machine

open Sys2Proof Sys2Proof.Machine

/-- Settles O50: a changed node code removes the requester's entries, a lowered maximum lowers them, output by output. -/
theorem requesterSlotWrites : Obligations.RequesterSlotWrites := by
  unfold Obligations.RequesterSlotWrites
  intro s node k j value hears setup holders orders copies u answered code top uc um
  have answers {id : ParamId} {t : State} (free : (s.heard k).refusesBusy id = false)
      (effect : (s.heard k).storeParam id value.toInt = t) :
      event (onReceipt (paramMessage node id value)) s = answered t id :=
    (param_known hears ⟨fun _ => setup, free⟩ value).trans (congrArg (answered · id) effect)
  exact ⟨fun same => answers rfl (State.storeParam_nodeCode_same same),
    fun changed => ⟨_, answers rfl (State.storeParam_nodeCode_changed changed), (State.ViewFrame.refl uc).nodeCodeChanged j,
      uc.nodeCodeChanged_arbiter j, State.nodeCodeChanged_at (s := uc) copies orders j⟩,
    fun high => answers rfl (State.storeParam_maxPriority_kept high),
    fun low => ⟨_, answers rfl (State.storeParam_maxPriority_lowered low),
      (State.ViewFrame.refl um).maxPriorityLowered j top, um.maxPriorityLowered_arbiter j top,
      State.maxPriorityLowered_at (s := um) copies orders j top⟩⟩

end

section
/-! Writes of the auger parameters: the auger entry removed, made, made anew and moved (R169, R170). -/

namespace Sys2Proof.Machine

variable {s t u : State} {o : OutId} {r : Requester} {e : Entry} {v : Int}

/-! ### What a stored value sets off -/

theorem Params.augerPriority_eq_fit {p : Params} :
    (p.augerPriority : Int) = p.fit .augerPriority v ↔ (clamp v 0 7).toNat = p.augerPriority := by
  rw [← Int.natCast_inj, clamp_toNat_cast (by decide) (by decide)]
  exact eq_comm

theorem Params.augerCamera_eq_fit {p : Params} :
    (p.augerCamera.num : Int) = p.fit .augerCamera v ↔ camOfCode (clamp v 0 3) = p.augerCamera := by
  obtain ⟨low, high⟩ := clamp_bounds v 0 3 (by decide)
  refine ⟨fun same => camOfCode_of_num same, fun same => ?_⟩
  rw [← same]
  exact camOfCode_num low high

theorem Params.augerOutput_eq_fit {p : Params} :
    (p.augerOutput.num : Int) = p.fit .augerOutput v ↔ outOfCode (clamp v 0 1) = p.augerOutput := by
  obtain ⟨low, high⟩ := clamp_bounds v 0 1 (by decide)
  refine ⟨fun same => outOfCode_of_num same, fun same => ?_⟩
  rw [← same]
  exact outOfCode_num low high

/-- An auger entry of one output alone is removed from it. -/
theorem State.augerRemove_single (absent : s.entry? o.other .auger = none) : s.augerRemove = s.remove o .auger := by
  unfold State.augerRemove
  cases o with
  | a => exact State.remove_absent ((State.remove_entry s .a .auger .b .auger).trans absent)
  | b => rw [State.remove_absent (o := .a) absent]

theorem State.augerRemove_absent (absent : ∀ o, s.entry? o .auger = none) : s.augerRemove = s :=
  (State.augerRemove_single (o := .a) (absent .b)).trans (State.remove_absent (absent .a))

section
variable (h : s.AugerOk)
include h

theorem State.AugerOk.storeParam_priority_idle
    (idle : (clamp v 0 7).toNat = s.params.augerPriority ∨ (s.channel .ec2).auger ≠ .outside) :
    s.storeParam .augerPriority v = s.stored .augerPriority v := by
  rw [State.storeParam_augerPriority]
  split
  · rfl
  next changed =>
    have isIn := idle.resolve_left (mt Params.augerPriority_eq_fit.mpr changed)
    refine (h.augerPriorityChanged_eq (clamp v 0 7).toNat).trans ?_
    rw [if_neg isIn]
    split
    · exact State.augerRemove_absent (s := s.stored .augerPriority v) (h.none_of_not_due fun due => isIn due.1)
    · rfl

theorem State.AugerOk.storeParam_priority_zero (due : s.AugerDue) (zero : (clamp v 0 7).toNat = 0) :
    s.storeParam .augerPriority v = (s.stored .augerPriority v).remove s.params.augerOutput .auger := by
  rw [State.storeParam_augerPriority, if_neg (mt Params.augerPriority_eq_fit.mp fun same => by
    obtain ⟨-, positive⟩ := due
    omega)]
  refine (h.augerPriorityChanged_eq (clamp v 0 7).toNat).trans ((if_pos zero).trans ?_)
  exact State.augerRemove_single (h.vacant fun here => OutId.other_ne _ here.1)

theorem State.AugerOk.storeParam_priority_made (out : (s.channel .ec2).auger = .outside)
    (positive : (clamp v 0 7).toNat ≠ 0) (changed : (clamp v 0 7).toNat ≠ s.params.augerPriority) :
    s.storeParam .augerPriority v = (s.stored .augerPriority v).augerCreate := by
  rw [State.storeParam_augerPriority, if_neg (mt Params.augerPriority_eq_fit.mp changed)]
  exact (h.augerPriorityChanged_eq (clamp v 0 7).toNat).trans ((if_neg positive).trans (if_pos out))

theorem State.AugerOk.storeParam_camera_idle (idle : camOfCode (clamp v 0 3) = s.params.augerCamera ∨ ¬s.AugerDue) :
    s.storeParam .augerCamera v = s.stored .augerCamera v := by
  rw [State.storeParam_augerCamera]
  split
  · rfl
  next changed =>
    exact (h.augerCameraChanged_eq _).trans (if_neg (idle.resolve_left (mt Params.augerCamera_eq_fit.mpr changed)))

theorem State.AugerOk.storeParam_camera_made (due : s.AugerDue) (changed : camOfCode (clamp v 0 3) ≠ s.params.augerCamera) :
    s.storeParam .augerCamera v = (s.stored .augerCamera v).augerCreate := by
  rw [State.storeParam_augerCamera, if_neg (mt Params.augerCamera_eq_fit.mp changed)]
  exact (h.augerCameraChanged_eq _).trans (if_pos due)

theorem State.AugerOk.storeParam_output_idle (idle : outOfCode (clamp v 0 1) = s.params.augerOutput ∨ ¬s.AugerDue) :
    s.storeParam .augerOutput v = s.stored .augerOutput v := by
  rw [State.storeParam_augerOutput]
  split
  · rfl
  next changed =>
    exact (h.augerOutputChanged_eq _).trans (if_neg (idle.resolve_left (mt Params.augerOutput_eq_fit.mpr changed)))

theorem State.AugerOk.storeParam_output_moved (due : s.AugerDue) (changed : outOfCode (clamp v 0 1) ≠ s.params.augerOutput) :
    s.storeParam .augerOutput v = ((s.stored .augerOutput v).remove s.params.augerOutput .auger).augerCreate := by
  rw [State.storeParam_augerOutput, if_neg (mt Params.augerOutput_eq_fit.mp changed)]
  refine (h.augerOutputChanged_eq _).trans ((if_pos due).trans (congrArg State.augerCreate ?_))
  exact State.augerRemove_single (h.vacant fun here => OutId.other_ne _ here.1)

end

/-! ### An entry made, seen from earlier; an entry that left, seen after a further receipt -/

theorem State.EntryMade.before (h : u.EntryMade t o r e) (earlier : s.Aside u o) : s.EntryMade t o r e := by
  have granted {q : Requester} (g : u.GrantedTo t o q) : s.GrantedTo t o q := by
    unfold State.GrantedTo at g ⊢
    rw [earlier.outGrant] at g
    exact g.before earlier
  unfold State.EntryMade at h ⊢
  simp only [earlier.entry?, earlier.outGrant] at h
  obtain ⟨entries, vacant, overtaken, own⟩ := h
  refine ⟨entries, fun free => granted (vacant free), fun h he held other entry => ?_, fun holder => ?_⟩
  · obtain ⟨above, elapsed, within, below⟩ := overtaken h he held other entry
    exact ⟨fun higher => granted (above higher), fun equal ended => granted (elapsed equal ended),
      fun equal running => (within equal running).imp_left (·.before earlier), fun lower => (below lower).before earlier⟩
  · obtain ⟨highest, passed⟩ := own holder
    refine ⟨fun top => granted (highest top), fun above => ?_⟩
    obtain ⟨h, other, best, grant⟩ := passed above
    exact ⟨h, other, best, granted grant⟩

/-- A further receipt counted. -/
theorem State.EntryLeft.counted (h : s.EntryLeft t o r) :
    s.EntryLeft (t.setArbiter { t.arbiter with receipts := t.arbiter.receipts + 1 }) o r := by
  obtain ⟨entries, kept, left⟩ := h
  refine ⟨entries, kept, fun holder => ?_⟩
  obtain ⟨default, regranted⟩ := left holder
  refine ⟨default, fun remains => ?_⟩
  obtain ⟨h, best, outGrant, ⟨low, high⟩, view⟩ := regranted remains
  exact ⟨h, best, outGrant, ⟨low, Nat.le_succ_of_le high⟩, view⟩

/-- An entry received on the other output. -/
theorem State.EntryLeft.receive (h : s.EntryLeft t o r) (copies : t.CopiesOk) {p : OutId} (other : o ≠ p) (q : Requester)
    (v : View) (n hold : Nat) : s.EntryLeft (t.receive p q v n hold) o r := by
  refine h.counted.after ?_
  rw [State.receive_eq]
  exact State.Regrants.aside (State.Arbitrates.afterReceipt _ p q _).toRegrants copies other
    ((PerOut.get_set _ _ _ _).trans (if_neg other)) rfl rfl

/-! ### The auger entry made anew and moved -/

theorem State.augerCreate_other (s : State) : s.OutputAlone s.augerCreate s.params.augerOutput.other :=
  s.receive_other _ _ _ _ _

section
variable (holders : s.HoldersOk) (orders : s.OrdersOk) (copies : s.CopiesOk)
include holders orders copies

theorem State.augerCreate_made : s.EntryMade s.augerCreate s.params.augerOutput .auger
    ⟨.full s.params.augerCamera, s.params.augerPriority, 0, s.timebase, s.arbiter.receipts + 1⟩ :=
  State.receive_made (holders _) copies (orders _).1 (orders _).2 _ _ _ _

/-- The entry leaves one output and is made on AUGER_OUTPUT. -/
theorem State.augerMove_moves (other : s.params.augerOutput ≠ o) (entry : s.entry? o .auger = some e) :
    s.EntryLeft (s.remove o .auger).augerCreate o .auger ∧
    s.EntryMade (s.remove o .auger).augerCreate s.params.augerOutput .auger
      ⟨.full s.params.augerCamera, s.params.augerPriority, 0, s.timebase, s.arbiter.receipts + 1⟩ := by
  obtain ⟨aside, copies'⟩ := State.remove_aside (r := .auger) copies other
  have left := State.remove_left copies (orders o).1 entry
  have made := State.augerCreate_made (holders.remove o .auger) (orders.remove o .auger) copies'
  rw [aside.params, aside.timebase, aside.receipts] at made
  refine ⟨left.receive copies' ?_ _ _ _ _, made.before aside⟩
  rw [aside.params]
  exact Ne.symm other

end

end Sys2Proof.Machine

open Sys2Proof Sys2Proof.Machine

/-- Settles O51: by the value that each write stores, and whether the entry stands. -/
theorem augerWrites : Obligations.AugerWrites := by
  unfold Obligations.AugerWrites
  intro s node k value hears auger holders orders copies u answered p isOut stands entry made priority camera output
  have answers {id : ParamId} {t : State} (free : (s.heard k).Takes id)
      (effect : (s.heard k).storeParam id value.toInt = t) :
      event (onReceipt (paramMessage node id value)) s = answered t id :=
    (param_known hears free value).trans (congrArg (answered · id) effect)
  have auger' : (s.heard k).AugerOk := auger
  have makes (id : ParamId) (output : (u id).params.augerOutput = p.augerOutput) :
      made id (u id).augerCreate (u id).params.augerCamera (u id).params.augerPriority := by
    have entryMade := State.augerCreate_made (s := u id) holders orders copies
    have other := (u id).augerCreate_other
    rw [output] at entryMade other
    exact ⟨(State.ViewFrame.refl _).augerCreate, entryMade, other⟩
  refine ⟨fun idle => answers (State.takes_unguarded rfl rfl) (auger'.storeParam_priority_idle idle),
    fun due zero => ?_, fun out positive changed => ⟨_, answers (State.takes_unguarded rfl rfl)
      (auger'.storeParam_priority_made out positive changed), makes .augerPriority rfl⟩,
    fun idle => answers (State.takes_unguarded rfl rfl) (auger'.storeParam_camera_idle idle),
    fun due changed => ⟨_, answers (State.takes_unguarded rfl rfl) (auger'.storeParam_camera_made due changed),
      makes .augerCamera rfl⟩,
    fun idle => answers (State.takes_unguarded rfl rfl) (auger'.storeParam_output_idle idle), fun due changed => ?_⟩
  · obtain ⟨e, present, -⟩ := auger.stands due
    exact ⟨_, answers (State.takes_unguarded rfl rfl) (auger'.storeParam_priority_zero due zero),
      (State.ViewFrame.refl _).remove _ _, State.remove_left (s := u .augerPriority) copies (orders _).1 present,
      (State.remove_aside (s := u .augerPriority) copies (OutId.other_ne _)).1.alone⟩
  · obtain ⟨e, present, -⟩ := auger.stands due
    exact ⟨_, answers (State.takes_unguarded rfl rfl) (auger'.storeParam_output_moved due changed),
      ((State.ViewFrame.refl _).remove _ _).augerCreate,
      State.augerMove_moves (s := u .augerOutput) holders orders copies changed present⟩

end

section
/-! Keep-alive: a silent requester's persistent entries expire, by the expiry command or by a write of KEEPALIVE (R165, R167). -/

namespace Sys2Proof.Machine

variable {s t u v d : State} {o : OutId} {r : Requester} {k : ReqSlot} {us : Nat}

/-! ### Who expires -/

theorem State.hasPersistent_iff :
    s.hasPersistent k o = true ↔ ∃ e, s.entry? o (.master k) = some e ∧ e.hold = 0 := by
  unfold State.hasPersistent persistent
  cases s.entry? o (.master k) with
  | none => simp
  | some e => simp

/-- Requester `k` has a persistent entry and was last heard `us` µs ago or longer. -/
def State.SilentFor (s : State) (k : ReqSlot) (us : Nat) : Prop :=
  (∃ o, s.hasPersistent k o = true) ∧ ∃ t, s.arbiter.lastHeard.get k = some t ∧ us ≤ (s.timebase - t).toNat

theorem State.silence?_eq_some {t : Nat} : s.silence? k = some t ↔
    (∃ o, s.hasPersistent k o = true) ∧ ∃ since, s.arbiter.lastHeard.get k = some since ∧ (s.timebase - since).toNat = t := by
  have either : (s.hasPersistent k .a || s.hasPersistent k .b) = true ↔ ∃ o, s.hasPersistent k o = true := by
    rw [Bool.or_eq_true]
    refine ⟨fun on => on.elim (⟨.a, ·⟩) (⟨.b, ·⟩), fun ⟨o, on⟩ => ?_⟩
    cases o with
    | a => exact .inl on
    | b => exact .inr on
  unfold State.silence?
  split
  next on => rw [Option.map_eq_some_iff, and_iff_right (either.mp on)]; rfl
  next off => exact ⟨nofun, fun ⟨on, _⟩ => absurd (either.mpr on) off⟩

theorem State.silentFor_iff : s.SilentFor k us ↔ ∃ t, s.silence? k = some t ∧ us ≤ t := by
  simp only [State.silence?_eq_some]
  exact ⟨fun ⟨on, since, heard, long⟩ => ⟨_, ⟨on, since, heard, rfl⟩, long⟩,
    fun ⟨_, ⟨on, since, heard, passed⟩, long⟩ => ⟨on, since, heard, passed ▸ long⟩⟩

/-- A write of KEEPALIVE expires requester `k`: it has been silent for longer than the value stored. -/
def State.Expires (s : State) (k : ReqSlot) : Prop := s.SilentFor k (s.params.keepalive * 1000 + 1)

theorem State.keepaliveWritten_expires (silent : s.Expires k) : s.keepaliveWritten k = s.expire k := by
  obtain ⟨t, silence, long⟩ := State.silentFor_iff.mp silent
  unfold State.keepaliveWritten
  rw [silence]
  exact if_pos long

theorem State.keepaliveWritten_stays (heard : ¬s.Expires k) : s.keepaliveWritten k = s := by
  unfold State.keepaliveWritten
  split
  · rfl
  next t silence => exact if_neg fun long => heard (State.silentFor_iff.mpr ⟨t, silence, long⟩)

section
variable (running : s.held = false)
include running

theorem keepaliveExpiry_silent (silent : s.SilentFor k (s.params.keepalive * 1000)) :
    exec (.keepaliveExpiry k) s = .next (takeHead (s.expire k)) := by
  obtain ⟨t, silence, long⟩ := State.silentFor_iff.mp silent
  change execKeepaliveExpiry k s = _
  rw [execKeepaliveExpiry, event_running running, silence]
  exact congrArg (fun w => Host.Outcome.next (takeHead w)) (if_pos long)

theorem keepaliveExpiry_heard (heard : ¬s.SilentFor k (s.params.keepalive * 1000)) :
    exec (.keepaliveExpiry k) s = .next (takeHead s) := by
  change execKeepaliveExpiry k s = _
  rw [execKeepaliveExpiry, event_running running]
  split
  · rfl
  next t silence => rw [if_neg fun long => heard (State.silentFor_iff.mpr ⟨t, silence, long⟩)]

end

/-! ### The state in which the entries are out -/

theorem State.dropPersistent_requests (s : State) (k : ReqSlot) (o q : OutId) : (s.dropPersistent k o).requests q =
    if q = o ∧ s.hasPersistent k o = true then (s.requests o).set (.master k) none else s.requests q := by
  unfold State.dropPersistent
  split
  next on =>
    refine (PerOut.get_set _ _ _ _).trans (if_congr ?_ rfl rfl)
    rw [and_iff_left on]
  next off => rw [if_neg fun both => off both.2]

theorem State.expiryNoted_requests (s : State) (k : ReqSlot) (o : OutId) : (s.expiryNoted k).requests o =
    if s.hasPersistent k o = true then (s.requests o).set (.master k) none else s.requests o := by
  have onB : (s.dropPersistent k .a).hasPersistent k .b = s.hasPersistent k .b := by
    unfold State.hasPersistent State.entry?
    rw [State.dropPersistent_requests, if_neg fun both => by cases both.1]
  change ((s.dropPersistent k .a).dropPersistent k .b).requests o = _
  rw [State.dropPersistent_requests, onB]
  cases o <;> simp [State.dropPersistent_requests]

theorem State.expiryNoted_view (s : State) (k : ReqSlot) : s.ViewFrame (s.expiryNoted k) := by
  obtain ⟨table, noted⟩ := s.expiryNoted_rest k
  rw [noted]
  exact ((State.ViewFrame.refl s).setArbiter _).notice (by decide) _ _

/-- An output on which the requester has no persistent entry is aside. -/
theorem State.expiryNoted_aside (off : ¬s.hasPersistent k o = true) : s.Aside (s.expiryNoted k) o := by
  have view := s.expiryNoted_view k
  have requests := (s.expiryNoted_requests k o).trans (if_neg off)
  obtain ⟨table, noted⟩ := s.expiryNoted_rest k
  exact ⟨requests, by rw [noted]; rfl, by rw [noted]; rfl, by rw [noted]; rfl, view.timebase, view.params, view.mi,
    fun clear => by rw [noted]; exact clear⟩

/-- On an output on which it has one, that entry alone is gone. -/
theorem State.expiryNoted_removed (on : s.hasPersistent k o = true) :
    (s.setArbiter (s.removed o (.master k))).Aside (s.expiryNoted k) o := by
  have view := s.expiryNoted_view k
  have requests : (s.expiryNoted k).requests o = (s.removed o (.master k)).table.get o :=
    ((s.expiryNoted_requests k o).trans (if_pos on)).trans ((PerOut.get_set _ _ _ _).trans (if_pos rfl)).symm
  obtain ⟨table, noted⟩ := s.expiryNoted_rest k
  exact ⟨requests, by rw [noted]; rfl, by rw [noted]; rfl, by rw [noted]; rfl, view.timebase, view.params, view.mi,
    fun clear => by rw [noted]; exact clear⟩

/-! ### The arbitration of one output after an expiry (R165) -/

/-- An output left without a holder and then granted counts two grant changes. -/
theorem State.Defaulted.granted (default : s.Defaulted d o) (arbitrates : s.Arbitrates d o) (granted : d.GrantedTo t o r) :
    s.GrantedCounting t o r (bump (bump (s.outGrant o).grantCount)) := by
  obtain ⟨outGrant, output, -, -⟩ := default
  obtain ⟨grant, order, ⟨e, entry, view⟩, busy, asked⟩ := granted
  rw [outGrant, arbitrates.view.timebase, arbitrates.view.params] at grant
  rw [arbitrates.receipts] at order
  rw [output] at view
  exact ⟨grant, order, ⟨e, entry, view⟩, busy, asked.before arbitrates.view.mi⟩

/-- Requester `r`'s entry of output `o` being out, the arbitration of the output makes it one that expired. -/
theorem State.afterExpiry_expired (gone : (s.setArbiter (s.removed o r)).Aside u o) (copies : u.CopiesOk)
    (late : ∀ q e, s.entry? o q = some e → e.order ≤ s.arbiter.receipts) : s.EntryExpired (u.afterExpiry o r) o r := by
  have entries (q : Requester) : u.entry? o q = if q = r then none else s.entry? o q :=
    (gone.entry? q).trans (s.removed_entry o r q)
  have table := State.Arbitrates.afterExpiry u o r
  have held : (u.outGrant o).holder = (s.outGrant o).holder := congrArg OutGrant.holder gone.outGrant
  refine ⟨fun q => (table.entry? o q).trans (entries q), fun notHolder => ?_, fun holder => ⟨fun empty => ?_, fun left => ?_⟩⟩
  · rw [State.afterExpiry, if_neg (held ▸ notHolder)]
    have kept : u.GrantKept (u.formCandidate o) o := ⟨State.setOutGrant_outGrant u o _, rfl⟩
    exact (kept.before gone :)
  · have default : u.afterExpiry o r = u.grantDefault o := by
      rw [State.afterExpiry, if_pos (held.trans holder),
        Requests.bestOf_none_iff.mpr fun q => (table.entry? o q).symm.trans (empty q)]
    rw [default]
    exact ((State.grantDefault_defaulted (a := u.arbiter) rfl copies o).before gone :)
  · obtain ⟨q, e, entry⟩ := left
    obtain ⟨b, best⟩ := State.exists_best ((table.entry? o q).symm.trans entry)
    obtain ⟨found, ranks⟩ := State.best_of_bestOf best
    have regranted : u.afterExpiry o r = (u.grantDefault o).grantTo o b.1 := by
      rw [State.afterExpiry, if_pos (held.trans holder), best]
    refine ⟨b.1, ranks.of_table table.table, ?_⟩
    have default := State.Arbitrates.grantDefault u o
    have late' (p : Requester) (e : Entry) (entry : u.entry? o p = some e) : e.order ≤ u.arbiter.receipts := by
      rw [gone.receipts]
      have before := (entries p).symm.trans entry
      split at before
      · cases before
      · exact late p e before
    have granted : (u.grantDefault o).GrantedTo ((u.grantDefault o).grantTo o b.1) o b.1 :=
      State.grantTo_granted (a := (u.grantDefault o).arbiter) rfl (default.copies copies).1 (le_refl _)
        (fun p e entry => default.receipts ▸ late' p e ((default.entry? o p).symm.trans entry))
        ((default.entry? o b.1).trans found)
    rw [regranted]
    have counted := (State.grantDefault_defaulted (a := u.arbiter) rfl copies o).granted default granted
    rw [gone.outGrant] at counted
    exact (counted.before gone :)

theorem State.EntryExpired.after (h : s.EntryExpired t o r) (later : t.Aside u o) : s.EntryExpired u o r := by
  obtain ⟨entries, kept, left⟩ := h
  refine ⟨fun q => (later.entry? q).trans (entries q), fun notHolder => (kept notHolder).after later, fun holder => ?_⟩
  obtain ⟨empty, remains⟩ := left holder
  simp only [later.entry?]
  exact ⟨fun vacant => (empty vacant).after later,
    fun entry => (remains entry).imp fun _ found => found.imp (·.after later) (·.after later)⟩

/-! ### An expiry (R167) -/

/-- The turn of output `o` in an expiry of requester `k`, by the entries that the requester had in `s`. -/
def State.expiryTurn (s : State) (k : ReqSlot) (w : State) (o : OutId) : State :=
  if s.hasPersistent k o then w.afterExpiry o (.master k) else w

theorem State.expire_turns (s : State) (k : ReqSlot) :
    s.expire k = s.expiryTurn k (s.expiryTurn k (s.expiryNoted k) .a) .b := rfl

theorem State.Arbitrates.expiryTurn (s : State) (k : ReqSlot) (w : State) (o : OutId) :
    w.Arbitrates (s.expiryTurn k w o) o := (State.Arbitrates.afterExpiry w o _).ite (.refl w o) _

theorem State.expiryNoted_copies (copies : s.CopiesOk) (k : ReqSlot) : (s.expiryNoted k).CopiesOk := by
  obtain ⟨table, noted⟩ := s.expiryNoted_rest k
  rw [noted]
  exact copies

theorem State.expire_copies (copies : s.CopiesOk) (k : ReqSlot) : (s.expire k).CopiesOk := by
  rw [State.expire_turns]
  have first := ((State.Arbitrates.expiryTurn s k _ .a).copies (State.expiryNoted_copies copies k)).1
  exact ((State.Arbitrates.expiryTurn s k _ .b).copies first).1

theorem State.expire_at (copies : s.CopiesOk) (orders : s.OrdersOk) (k : ReqSlot) (o : OutId) :
    (s.hasPersistent k o = true → s.EntryExpired (s.expire k) o (.master k)) ∧
    (¬s.hasPersistent k o = true → s.OutputAlone (s.expire k) o) := by
  have turns := State.Arbitrates.turnsAside (State.Arbitrates.expiryTurn s k)
  have copies' := State.expiryNoted_copies copies k
  rw [State.expire_turns]
  refine ⟨fun on => ?_, fun off => ?_⟩
  · refine turns.both (P := (s.EntryExpired · o (.master k))) copies' State.EntryExpired.after
      fun w earlier copiesW => ?_
    rw [State.expiryTurn, if_pos on]
    exact State.afterExpiry_expired ((State.expiryNoted_removed on).trans earlier) copiesW (orders o).1
  · refine turns.both (P := (s.OutputAlone · o)) copies' (fun h later => h.trans later.alone) fun w earlier copiesW => ?_
    rw [State.expiryTurn, if_neg off]
    exact ((State.expiryNoted_aside off).trans earlier).alone

theorem State.expire_arbiter (s : State) (k : ReqSlot) : (s.expire k).arbiter =
    { s.arbiter with
      expiryCount := s.arbiter.expiryCount.set k (bump (s.arbiter.expiryCount.get k))
      table := (s.expire k).arbiter.table, outs := (s.expire k).arbiter.outs } := by
  obtain ⟨table, noted⟩ := s.expiryNoted_rest k
  rw [State.expire_turns, (State.Arbitrates.expiryTurn s k (s.expiryTurn k (s.expiryNoted k) .a) .b).outsAlone,
    (State.Arbitrates.expiryTurn s k (s.expiryNoted k) .a).outsAlone, noted]
  rfl

theorem State.expire_asks (s : State) (k : ReqSlot) :
    s.AskedFor (s.expire k) (.faultNotice .requestExpired k.num (bump (s.arbiter.expiryCount.get k))) := by
  obtain ⟨table, noted⟩ := s.expiryNoted_rest k
  have asked : s.AskedFor (s.expiryNoted k) (.faultNotice .requestExpired k.num (bump (s.arbiter.expiryCount.get k))) :=
    ⟨[_], List.mem_singleton_self _, by rw [noted]; rfl⟩
  rw [State.expire_turns]
  exact (asked.after (State.Arbitrates.expiryTurn s k _ .a).view.mi).after (State.Arbitrates.expiryTurn s k _ .b).view.mi

/-- Between `s` and `t` requester `k` expired. -/
structure State.ExpiredBy (s t : State) (k : ReqSlot) : Prop where
  view : s.ViewFrame t
  arbiter : t.arbiter = { s.arbiter with
    expiryCount := s.arbiter.expiryCount.set k (bump (s.arbiter.expiryCount.get k))
    table := t.arbiter.table, outs := t.arbiter.outs }
  notice : s.AskedFor t (.faultNotice .requestExpired k.num (bump (s.arbiter.expiryCount.get k)))
  outputs : ∀ o, (s.hasPersistent k o = true → s.EntryExpired t o (.master k)) ∧
    (¬s.hasPersistent k o = true → s.OutputAlone t o)

theorem State.expire_expiredBy (copies : s.CopiesOk) (orders : s.OrdersOk) (k : ReqSlot) : s.ExpiredBy (s.expire k) k where
  view := (State.ViewFrame.refl s).expire k
  arbiter := s.expire_arbiter k
  notice := s.expire_asks k
  outputs := State.expire_at copies orders k

/-! ### A write of KEEPALIVE: the slots in their order -/

/-- From state `u` the requesters of the slots `done` have had their turn, which left state `v`. -/
structure State.ExpiredAmong (u v : State) (done : List ReqSlot) : Prop where
  view : u.ViewFrame v
  holders : v.HoldersOk
  orders : v.OrdersOk
  copies : v.CopiesOk
  lastHeard : v.arbiter.lastHeard = u.arbiter.lastHeard
  counts : ∀ k, k ∉ done → v.arbiter.expiryCount.get k = u.arbiter.expiryCount.get k
  gone : ∀ o, ∀ k ∈ done, u.Expires k → u.hasPersistent k o = true → v.entry? o (.master k) = none
  kept : ∀ o q, (∀ k ∈ done, q = .master k → u.Expires k → ¬u.hasPersistent k o = true) → v.entry? o q = u.entry? o q

namespace State.ExpiredAmong

variable {done : List ReqSlot}

theorem start (holders : u.HoldersOk) (orders : u.OrdersOk) (copies : u.CopiesOk) : u.ExpiredAmong u [] :=
  ⟨.refl u, holders, orders, copies, rfl, fun _ _ => rfl, nofun, fun _ _ _ => rfl⟩

section
variable (h : u.ExpiredAmong v done) (waiting : k ∉ done)
include h waiting

/-- The entries of a requester that still waits for its turn are as they were. -/
theorem hasPersistent_eq (o : OutId) : v.hasPersistent k o = u.hasPersistent k o := by
  unfold State.hasPersistent
  rw [h.kept o (.master k) fun j member same => by cases same; exact absurd member waiting]

theorem expires_iff : v.Expires k ↔ u.Expires k := by
  unfold State.Expires State.SilentFor
  simp only [h.hasPersistent_eq waiting, h.lastHeard, h.view.timebase, h.view.params]

/-- The turn of the next slot. -/
theorem next : u.ExpiredAmong (v.keepaliveWritten k) (done ++ [k]) := by
  by_cases expires : u.Expires k
  · rw [State.keepaliveWritten_expires ((h.expires_iff waiting).mpr expires)]
    refine ⟨h.view.expire k, h.holders.expire k, h.orders.expire k, State.expire_copies h.copies k, ?_, fun j later => ?_,
      fun o j member expiresJ persistentJ => ?_, fun o q spared => ?_⟩
    · rw [State.expire_arbiter]
      exact h.lastHeard
    · obtain ⟨other, different⟩ := not_or.mp (mt List.mem_append.mpr later)
      rw [State.expire_arbiter, PerReq.get_set, if_neg fun same => different (List.mem_singleton.mpr same)]
      exact h.counts j other
    · rw [State.expire_entry]
      split
      · rfl
      next alive =>
        refine h.gone o j ((List.mem_append.mp member).resolve_right fun last => alive ?_) expiresJ persistentJ
        obtain rfl := List.mem_singleton.mp last
        exact ⟨rfl, (h.hasPersistent_eq waiting o).trans persistentJ⟩
    · have stays : ¬(q = .master k ∧ v.hasPersistent k o = true) := fun ⟨same, persistent⟩ =>
        spared k (List.mem_append_right _ (List.mem_singleton_self k)) same expires
          ((h.hasPersistent_eq waiting o).symm.trans persistent)
      rw [State.expire_entry, if_neg stays]
      exact h.kept o q fun j member => spared j (List.mem_append_left _ member)
  · rw [State.keepaliveWritten_stays (mt (h.expires_iff waiting).mp expires)]
    refine { h with counts := fun j later => h.counts j fun member => later (List.mem_append_left _ member), gone := ?_,
                    kept := fun o q spared => h.kept o q fun j member => spared j (List.mem_append_left _ member) }
    intro o j member expiresJ
    rcases List.mem_append.mp member with member | last
    · exact h.gone o j member expiresJ
    · obtain rfl := List.mem_singleton.mp last
      exact absurd expiresJ expires

end

theorem foldl (h : u.ExpiredAmong v done) {rest : List ReqSlot} (once : (done ++ rest).Nodup) :
    u.ExpiredAmong (rest.foldl State.keepaliveWritten v) (done ++ rest) := by
  induction rest generalizing done v with
  | nil => simpa using h
  | cons k rest ih =>
    rw [List.append_cons] at once ⊢
    have waiting : k ∉ done := fun member =>
      List.disjoint_of_nodup_append once.of_append_left member (List.mem_singleton_self k)
    exact ih (h.next waiting) once

end State.ExpiredAmong

/-- The state after the turns of the first `n` slots. -/
def State.keepaliveTurns (u : State) (n : Nat) : State := (ReqSlot.all.take n).foldl State.keepaliveWritten u

theorem State.keepaliveTurns_slot (u : State) (k : ReqSlot) :
    u.keepaliveTurns k.num = (u.keepaliveTurns (k.num - 1)).keepaliveWritten k := by
  cases k <;> rfl

theorem State.keepaliveTurns_expiredAmong (holders : u.HoldersOk) (orders : u.OrdersOk) (copies : u.CopiesOk) (n : Nat) :
    u.ExpiredAmong (u.keepaliveTurns n) (ReqSlot.all.take n) :=
  (State.ExpiredAmong.start holders orders copies).foldl (rest := ReqSlot.all.take n)
    ((show ReqSlot.all.Nodup by decide).sublist (List.take_sublist n _))

theorem ReqSlot.not_mem_take (k : ReqSlot) : k ∉ ReqSlot.all.take (k.num - 1) := by cases k <;> decide

end Sys2Proof.Machine

open Sys2Proof Sys2Proof.Machine

/-- Settles O48: the expiry is one requester's; the write folds it through the slots, each by what it left of the later ones. -/
theorem keepaliveExpiries : Obligations.KeepaliveExpiries := by
  unfold Obligations.KeepaliveExpiries
  intro s holders orders copies persistent silentFor expired
  have persistent_iff {k : ReqSlot} {o : OutId} : persistent k o ↔ s.hasPersistent k o = true :=
    State.hasPersistent_iff.symm
  have silent_iff {u : State} {k : ReqSlot} {us : Nat} (entries : ∀ o, u.hasPersistent k o = s.hasPersistent k o)
      (time : u.timebase = s.timebase) : silentFor u k us ↔ u.SilentFor k us := by
    unfold State.SilentFor
    simp only [silentFor, persistent_iff, entries, time]
  have expired_of {v w : State} {k : ReqSlot} (expiry : v.ExpiredBy w k)
      (count : v.arbiter.expiryCount.get k = s.arbiter.expiryCount.get k)
      (entries : ∀ o, v.hasPersistent k o = s.hasPersistent k o) : expired v w k := by
    obtain ⟨view, arbiter, notice, outputs⟩ := expiry
    rw [count] at arbiter notice
    simp only [entries, ← persistent_iff] at outputs
    exact ⟨view, arbiter, notice, outputs⟩
  refine ⟨fun k running silent => ⟨_, keepaliveExpiry_silent running ((silent_iff (fun _ => rfl) rfl).mp silent),
      expired_of (State.expire_expiredBy copies orders k) rfl fun _ => rfl⟩,
    fun k running heard => keepaliveExpiry_heard running (mt (silent_iff (fun _ => rfl) rfl).mpr heard),
    fun node k value hears => ?_⟩
  intro u ms
  refine ⟨rfl, ?_⟩
  intro expires
  have expires_iff {j : ReqSlot} : expires j ↔ u.Expires j := silent_iff (fun _ => rfl) rfl
  have among := State.keepaliveTurns_expiredAmong (u := u) holders orders copies
  have all := among 6
  refine ⟨u.keepaliveTurns, rfl, param_known hears (State.takes_unguarded rfl rfl) value, fun j => ?_, all.view, all.holders,
    fun o => all.kept o .auger nofun, fun j o => ⟨fun silent on => ?_, fun spared => ?_⟩⟩
  · have before := among (j.num - 1)
    have waiting := ReqSlot.not_mem_take j
    rw [expires_iff, ← before.expires_iff waiting, u.keepaliveTurns_slot j]
    refine ⟨fun silent => ?_, State.keepaliveWritten_stays⟩
    rw [State.keepaliveWritten_expires silent]
    exact expired_of (State.expire_expiredBy before.copies before.orders j) (before.counts j waiting)
      (before.hasPersistent_eq waiting)
  · exact all.gone o j (ReqSlot.mem_all j) (expires_iff.mp silent) (persistent_iff.mp on)
  · refine all.kept o (.master j) fun i member same silent on => spared ?_
    cases same
    exact ⟨expires_iff.mpr silent, persistent_iff.mpr on⟩

end

section
/-! The form of the outbound queue, command by command (R192, R193). Every block but the message interface only asks for
messages; the interface itself changes error counts, its buffer and its timers, or makes the queue anew at a start and at
a soft reset. -/

namespace Sys2Proof.Machine

/-! ### The interface's own operations -/

@[simp] theorem Interface.withErrors_queue (mi : Interface) (tx rx : Nat) : (mi.withErrors tx rx).queue = mi.queue := by
  unfold Interface.withErrors
  split <;> rfl

@[simp] theorem Interface.withErrors_dropPending (mi : Interface) (tx rx : Nat) :
    (mi.withErrors tx rx).dropPending = mi.dropPending := by
  unfold Interface.withErrors
  split <;> rfl

namespace Interface.QueueOk

variable {a b : Interface}

/-- The form depends on the queue and on drop-pending alone. -/
theorem of_same (h : a.QueueOk) (queue : b.queue = a.queue) (pending : b.dropPending = a.dropPending) : b.QueueOk := by
  unfold Interface.QueueOk at h ⊢
  rw [queue, pending]
  exact h

/-- A soft reset leaves its answer and the VIEW STATUS of both outputs, and no notice owed (R191). -/
theorem afterReset (mi : Interface) (node : Byte) (underWay : Bool) (now : Time) :
    (mi.afterReset node underWay now).QueueOk :=
  ⟨show 3 ≤ 8 by decide, by simp [Interface.afterReset, Message.key], nofun⟩

/-- A start leaves the two VIEW STATUS (R202). -/
theorem initial (rateHigh : Bool) (idStrap : BitVec 4) : (Interface.initial rateHigh idStrap).QueueOk :=
  ⟨show 2 ≤ 8 by decide, show [MessageKey.viewStatus .a, .viewStatus .b].Nodup by decide, nofun⟩

end Interface.QueueOk

/-- The part's outbound queue is in form. -/
def State.QueueOk (s : State) : Prop := s.mi.QueueOk

namespace State.QueueOk

variable {s t : State}

/-! ### Updates -/

theorem aside (h : s.QueueOk) (mi : t.mi = s.mi := by rfl) : t.QueueOk := by
  unfold State.QueueOk
  rw [mi]
  exact h

/-- A block that only asks for messages, none of them an OUTBOUND_DROP notice. -/
theorem asked (h : s.QueueOk) (asks : s.mi.Asked t.mi) : t.QueueOk := asks.ok h

theorem ask (h : s.QueueOk) {m : Message} (plain : m.key ≠ (dropNotice 0).key := by simp [Message.key, dropNotice]) :
    (s.ask m).QueueOk := Interface.place_ok plain h

theorem setLink (h : s.QueueOk) (c : CamId) (v : Link) : (s.setLink c v).QueueOk := h

/-- A change of anything but the queue and drop-pending. -/
theorem setMi (h : s.QueueOk) {v : Interface} (queue : v.queue = s.mi.queue := by simp)
    (pending : v.dropPending = s.mi.dropPending := by simp) : (s.setMi v).QueueOk :=
  Interface.QueueOk.of_same h queue pending

theorem ite (yes : s.QueueOk) (no : t.QueueOk) (p : Prop) [Decidable p] : (if p then s else t).QueueOk := by
  split
  · exact yes
  · exact no

/-- An operation that keeps the form keeps it when it is repeated over a list. -/
theorem foldl {α : Type} {f : State → α → State} (each : ∀ (u : State) (a : α), u.QueueOk → (f u a).QueueOk)
    (l : List α) (h : s.QueueOk) : (l.foldl f s).QueueOk := by
  induction l generalizing s with
  | nil => exact h
  | cons a l ih => exact ih (each s a h)

theorem changeChannel (h : s.QueueOk) (e : ChanId) (ch : Channel) : (s.changeChannel e ch).QueueOk :=
  h.asked ((State.MachineFrame.refl s).changeChannel e ch).mi

/-! ### Stored writes -/

theorem camWritten (h : s.QueueOk) (c : CamId) (p : CamParam) (old new : Int) : (s.camWritten c p old new).QueueOk := by
  have picture := State.PictureFrame.refl s
  cases p
  case linkEnable =>
    exact h.ite (((h.setLink c _).ite h _).ite (((h.asked (picture.linkDown c).mi).ite h _).setLink c _) _) _
  case tapOverride => exact h.asked (picture.forceTapUpdate c).mi
  case tapGate => exact (h.asked (picture.applyPendingTap c).mi).ite h _
  case holdLimit => exact h.aside
  case phaseSource => exact h.ite h.aside _
  all_goals exact h

theorem chanWritten (h : s.QueueOk) (e : ChanId) (p : ChanParam) (old new : Int) :
    (s.chanWritten e p old new).QueueOk := by
  have machine := State.MachineFrame.refl s
  have bound := h.asked (machine.reboundPosition e).mi
  have rebound := bound.ite (bound.asked ((State.PictureFrame.refl _).clearBound e).mi) (old = new)
  cases p
  case enable => exact h.ite ((h.changeChannel _ _).ite (h.changeChannel _ _) _) _
  case mode => exact rebound
  case cpr => exact rebound
  case maxPeriod => exact h.asked (machine.maxPeriodWritten e).mi
  case outThreshold => exact h.changeChannel _ _
  case inThreshold => exact h.changeChannel _ _
  all_goals exact h

theorem outWritten (h : s.QueueOk) (o : OutId) (p : OutParam) (old new : Int) : (s.outWritten o p old new).QueueOk := by
  cases p
  case rasterRate => exact h.aside.ite h _
  all_goals exact h

/-- What a stored write sets off in its block asks for messages alone. -/
theorem written (h : s.QueueOk) (id : ParamId) (old new : Int) : (s.written id old new).QueueOk := by
  have view := State.ViewFrame.refl s
  cases id with
  | cam c p => exact h.camWritten c p old new
  | chan e p => exact h.chanWritten e p old new
  | out o p => exact h.outWritten o p old new
  | dwell => exact h.asked ((view.dwellWritten _).dwellWritten _).mi
  | keepalive => exact foldl (fun u k g => g.asked ((State.ViewFrame.refl u).keepaliveWritten k).mi) _ h
  | augerOutput => exact h.ite (h.asked view.augerOutputChanged.mi) _
  | augerCamera => exact h.ite (h.asked view.augerCameraChanged.mi) _
  | augerPriority => exact h.ite (h.asked view.augerPriorityChanged.mi) _
  | nodeCode k => exact h.ite (h.asked (view.nodeCodeChanged k).mi) _
  | maxPriority k => exact (h.asked (view.maxPriorityLowered k _).mi).ite h _

theorem writeParam (h : s.QueueOk) (node : Byte) (number : Word) (id : ParamId) (v : Int) :
    (s.writeParam node number id v).QueueOk := by
  have stored : (s.storeParam id v).QueueOk := (h.aside (t := s.stored id v)).written _ _ _
  unfold State.writeParam
  split
  · exact stored.ask
  · exact stored.ask
  · exact h.ask

/-! ### The soft reset -/

/-- Whatever the queue held is gone; an auger entry made anew asks for messages (R191). -/
theorem softReset (s : State) (node : Byte) (underWay : Bool) : (s.softReset node underWay).QueueOk := by
  obtain ⟨ls, rs, scs, xs, -, after⟩ := s.softReset_eq node underWay
  have others : (((s.setMi (s.mi.afterReset node underWay s.timebase)).withCameras ls rs scs xs).othersReset).QueueOk :=
    Interface.QueueOk.afterReset _ _ _ _
  rw [after]
  exact (others.asked (State.ViewFrame.refl _).augerCreate.mi).ite others _

/-! ### Messages -/

theorem onReceipt (h : s.QueueOk) {f : State → State} (work : ∀ u : State, u.QueueOk → (f u).QueueOk) :
    (Machine.onReceipt f s).QueueOk := by
  have received : (s.setMi s.mi.frameReceived).QueueOk :=
    h.setMi (Interface.withErrors_queue _ _ _) (Interface.withErrors_dropPending _ _ _)
  exact (work _ received).ite h _

theorem fromNode (h : s.QueueOk) (node : Byte) {unknown : State → State} {known : ReqSlot → State → State}
    (stranger : ∀ u : State, u.QueueOk → (unknown u).QueueOk)
    (heard : ∀ (k : ReqSlot) (u : State), u.QueueOk → (known k u).QueueOk) :
    (Machine.fromNode node unknown known s).QueueOk := by
  unfold Machine.fromNode
  split
  · exact stranger _ h
  · exact heard _ _ h.aside

theorem paramMessage (h : s.QueueOk) (node : Byte) (id : ParamId) (value : BitVec 32) :
    (Machine.paramMessage node id value s).QueueOk :=
  h.fromNode node (fun _ g => g.ask) (fun _ _ g => g.writeParam _ _ _ _)

theorem paramReadMessage (h : s.QueueOk) (node : Byte) (number : Word) :
    (Machine.paramReadMessage node number s).QueueOk := by
  refine h.fromNode node (fun _ g => g.ask) (fun _ u g => ?_)
  split <;> exact g.ask

theorem paramWriteMessage (h : s.QueueOk) (node : Byte) (number : Word) (value : BitVec 32) :
    (Machine.paramWriteMessage node number value s).QueueOk := by
  refine h.fromNode node (fun _ g => g.ask) (fun _ u g => ?_)
  split
  · exact g.writeParam _ _ _ _
  · exact g.ask
  · exact g.ask

theorem commandMessage (h : s.QueueOk) (node target : Byte) (bits : Word) (underWay : Bool) :
    (Machine.commandMessage node target bits underWay s).QueueOk := by
  refine h.fromNode node (fun _ g => g.ask) (fun _ u g => ?_)
  split
  next => exact g.ask
  next target _ =>
    cases target with
    | camera c => exact (g.asked ((State.PictureFrame.refl u).cameraCommands c bits).mi).ask
    | encoder e => exact (g.asked ((State.MachineFrame.refl u).encoderCommands e bits).mi).ask
    | device => exact (softReset u node underWay).ite g.ask _

theorem freezeMessage (h : s.QueueOk) (node output action : Byte) :
    (Machine.freezeMessage node output action s).QueueOk := by
  unfold Machine.freezeMessage
  dsimp only
  refine h.fromNode node (fun _ g => g.ask) (fun k u g => ?_)
  have display := State.OutputFrame.refl u
  split
  · exact g.ask
  · exact g.ask.ite (g.ask.ite ((g.asked (display.freeze _ _ _).mi).ite (g.asked (display.unfreeze _ _).mi) _) _) _

theorem viewRequestMessage (h : s.QueueOk) (node output layout camA camB priority : Byte) (hold : Word) :
    (Machine.viewRequestMessage node output layout camA camB priority hold s).QueueOk := by
  refine h.fromNode node (fun _ g => g.ask) (fun k u g => ?_)
  split
  · exact g.ask
  · split
    · exact g.ask
    · exact (g.asked ((State.ViewFrame.refl u).receive _ _ _ _ _).mi).ask

theorem viewReleaseMessage (h : s.QueueOk) (node output : Byte) : (Machine.viewReleaseMessage node output s).QueueOk := by
  refine h.fromNode node (fun _ g => g.ask) (fun k u g => ?_)
  split
  · exact g.ask
  · split
    · exact g.ask
    · exact (g.asked ((State.ViewFrame.refl u).remove _ _).mi).ask

theorem keepaliveMessage (h : s.QueueOk) (node : Byte) : (Machine.keepaliveMessage node s).QueueOk :=
  h.fromNode node (fun _ g => g) (fun _ _ g => g)

/-- A frame, whatever message it carries. -/
theorem takeFrame (h : s.QueueOk) (f : CanFrame) : (Machine.takeFrame f s).QueueOk := by
  unfold Machine.takeFrame
  split
  next => exact h
  next kind _ =>
    cases kind with
    | viewRequest => exact h.viewRequestMessage _ _ _ _ _ _ _
    | viewRelease => exact h.viewReleaseMessage _ _
    | freeze => exact h.freezeMessage _ _ _
    | paramWrite => exact h.paramWriteMessage _ _ _
    | paramRead => exact h.paramReadMessage _ _
    | command => exact h.commandMessage _ _ _ _
    | keepalive => exact h.keepaliveMessage _

/-! ### Commands of the part -/

theorem event (h : s.QueueOk) {f : State → State} (e : Machine.event f s = .next t) (work : (f s).QueueOk) :
    t.QueueOk := by
  cases held : s.held
  · rw [event_running held] at e
    cases e
    exact takeHead_ok work
  · rw [event_held held] at e
    cases e
    exact h

/-- A command of the links, the frame store or the engine. -/
theorem pictureEvent (h : s.QueueOk) {f : State → State} (e : Machine.event f s = .next t)
    (work : s.PictureFrame (f s)) : t.QueueOk := h.event e (h.asked work.mi)

/-- A marker of a camera link. -/
theorem markerRow (h : s.QueueOk) {c : CamId} {n : Nat} {f : State → State}
    (e : Machine.event (fun s => s.marker c n f) s = .next t)
    (work : ∀ u : State, s.PictureFrame u → s.PictureFrame (f u)) : t.QueueOk :=
  h.pictureEvent e ((State.PictureFrame.refl s).marker c n work)

theorem message (h : s.QueueOk) {f : State → State} (e : Machine.event (Machine.onReceipt f) s = .next t)
    (work : ∀ u : State, u.QueueOk → (f u).QueueOk) : t.QueueOk := h.event e (h.onReceipt work)

theorem paramRow (h : s.QueueOk) {node : Byte} {id : ParamId} {value : BitVec 32}
    (e : Machine.event (Machine.onReceipt (Machine.paramMessage node id value)) s = .next t) : t.QueueOk :=
  h.message e fun _ g => g.paramMessage node id value

theorem bitRow (h : s.QueueOk) {node : Byte} {target : Target} {bits : Word} {i : Nat}
    (e : Machine.event (Machine.onReceipt (Machine.bitCommand node target bits i false)) s = .next t) : t.QueueOk :=
  h.message e fun _ g => g.commandMessage node target.byte _ false

theorem referenceUnlock (h : s.QueueOk) {c : CamId} (e : execReferenceUnlock c s = .next t) : t.QueueOk := by
  refine h.pictureEvent e ?_
  split
  · exact (State.PictureFrame.refl s).failAttempt c
  · exact (State.PictureFrame.refl s).leaveLocked c
  all_goals exact .refl s

theorem wordClock (h : s.QueueOk) {c : CamId} (e : execWordClock c s = .next t) : t.QueueOk := by
  refine h.event e ?_
  split
  · exact h.aside
  · exact h.aside
  all_goals exact h

theorem pixelWord (h : s.QueueOk) {c : CamId} {w : Word} (e : execPixelWord c w s = .next t) : t.QueueOk := by
  refine h.event e ?_
  split
  · exact h.aside
  · exact h.aside
  all_goals exact h

theorem quadratureEdge (h : s.QueueOk) {c : ChanId} {a b : Bool} (e : execQuadratureEdge c a b s = .next t) :
    t.QueueOk := by
  refine h.event e ?_
  dsimp only
  split
  · exact h.aside
  · exact h.changeChannel c _

theorem indexEdge (h : s.QueueOk) {c : ChanId} {level : Bool} (e : execIndexEdge c level s = .next t) : t.QueueOk := by
  refine h.event e ?_
  dsimp only
  split
  · exact h.aside
  · exact (h.ask.ite h _).changeChannel c _

theorem stopWatchExpiry (h : s.QueueOk) {c : ChanId} (e : execStopWatchExpiry c s = .next t) : t.QueueOk := by
  refine h.event e ?_
  split
  · exact h
  · exact (h.asked ((State.MachineFrame.refl s).stopChannel c).mi).ite h _

theorem timedExpiry (h : s.QueueOk) {r : Requester} {o : OutId} (e : execTimedExpiry r o s = .next t) : t.QueueOk := by
  refine h.event e ?_
  split
  · exact h
  · exact (h.asked ((State.ViewFrame.refl s).remove o r).mi).ite h _

theorem keepaliveExpiry (h : s.QueueOk) {k : ReqSlot} (e : execKeepaliveExpiry k s = .next t) : t.QueueOk := by
  refine h.event e ?_
  split
  · exact h
  · exact (h.asked ((State.ViewFrame.refl s).expire k).mi).ite h _

theorem encoderTimer (h : s.QueueOk) (e : execEncoderTimer s = .next t) : t.QueueOk := by
  refine h.event e (ite ?_ h _)
  have moved : (s.setMi { s.mi with encTimer := s.mi.encTimer + 250000 }).QueueOk := h.setMi
  generalize s.setMi { s.mi with encTimer := s.mi.encTimer + 250000 } = u at moved ⊢
  cases s.enabledInTurn with
  | none => exact moved
  | some e => exact moved.setMi.ask

theorem softResetRow (h : s.QueueOk) {node : Byte} {bits : Word} {underWay : Bool}
    (e : execSoftReset node bits underWay s = .next t) : t.QueueOk :=
  h.event e ((h.commandMessage _ _ _ _).ite (h.onReceipt (fun _ g => g.commandMessage _ _ _ _)) _)

theorem powerUp (s : State) (l : BootLevels) : (s.powerUp l).QueueOk := Interface.QueueOk.initial _ _

theorem tick (h : s.QueueOk) : (Machine.tick s).QueueOk := by
  cases held : s.held
  · rw [tick_of_running held]
    exact h.aside
  · rw [tick_of_held held]
    exact h

/-- Every command keeps the form of the queue. -/
theorem exec (h : s.QueueOk) (i : Instr) (e : Machine.exec i s = .next t) : t.QueueOk := by
  cases i with
  | powerOn l => cases e; exact powerUp s l
  | resetLine l => cases e; exact powerUp s l
  | resetLineActive => cases e; exact (powerUp s s.pinLevels).aside
  | setupLineChange level => cases e; exact h.aside
  | referenceLock c _ => exact h.event e ((h.setLink c _).ite h _)
  | acquireTimeout c => exact h.event e ((h.asked ((State.PictureFrame.refl s).failAttempt c).mi).ite h _)
  | gateEnd c =>
    exact h.event e (((h.setLink c _).ite (h.asked ((State.PictureFrame.refl s).failAttempt c).mi) _).ite h _)
  | referenceUnlock c => exact h.referenceUnlock e
  | backoffEnd c => exact h.event e ((h.setLink c _).ite h _)
  | signalLoss c => exact h.event e ((h.asked ((State.PictureFrame.refl s).leaveLocked c).mi).ite h _)
  | frameStart c n _ => exact h.markerRow e fun _ g => (g.setOffered c _).takeFrameStart c n
  | lineStart c _ => exact h.markerRow e fun _ g => g.whileReceiving c fun k _ g => g.takeLineStart c k _
  | pixelWord c w => exact h.pixelWord e
  | lineEnd c w => exact h.markerRow e fun _ g => g.whileReceiving c fun k _ g => g.takeLineEnd c k w
  | frameEnd c _ => exact h.markerRow e fun _ g => (g.setOffered c _).takeFrameEnd c
  | wordClock c => exact h.wordClock e
  | jobCompletion => exact h.pictureEvent e ((State.PictureFrame.refl s).completeJob)
  | quadratureEdge => exact h.quadratureEdge e
  | indexEdge => exact h.indexEdge e
  | stopWatchExpiry c => exact h.stopWatchExpiry e
  | outputFrameStart o => exact h.event e ((h.asked ((State.OutputFrame.refl s).outputFrame o).mi).ite h _)
  | viewRequest => exact h.message e fun _ g => g.viewRequestMessage _ _ _ _ _ _ _
  | viewRelease => exact h.message e fun _ g => g.viewReleaseMessage _ _
  | timedExpiry r o => exact h.timedExpiry e
  | keepaliveExpiry k => exact h.keepaliveExpiry e
  | dwellExpiry o => exact h.event e ((h.asked ((State.ViewFrame.refl s).dwellElapsed o).mi).ite h _)
  | freeze => exact h.message e fun _ g => g.freezeMessage _ _ _
  | unfreeze => exact h.message e fun _ g => g.freezeMessage _ _ _
  | copyCompletion => exact h.event e (h.asked (State.OutputFrame.refl s).completeCopy.mi)
  | paramWrite => exact h.message e fun _ g => g.paramWriteMessage _ _ _
  | paramRead => exact h.message e fun _ g => g.paramReadMessage _ _
  | keepalive => exact h.message e fun _ g => g.keepaliveMessage _
  | canFrameIgnored f => exact h.message e fun _ g => g.takeFrame f
  | linkReset => exact h.bitRow e
  | refRefresh => exact h.bitRow e
  | tableClear => exact h.bitRow e
  | forceTapUpdate => exact h.message e fun _ g => State.QueueOk.commandMessage g.aside _ _ _ _
  | clearCounts => exact h.bitRow e
  | clearPosition => exact h.bitRow e
  | armIndex => exact h.bitRow e
  | releaseCapture => exact h.bitRow e
  | clearCountsEncoder => exact h.bitRow e
  | softReset => exact h.softResetRow e
  | command => exact h.message e fun _ g => g.commandMessage _ _ _ _
  | linkEnable => exact h.paramRow e
  | tapOverride => exact h.message e fun _ g => State.QueueOk.paramMessage g.aside _ _ _
  | tapGate => exact h.message e fun _ g => State.QueueOk.paramMessage g.aside _ _ _
  | holdLimit => exact h.paramRow e
  | phaseSource => exact h.paramRow e
  | enable => exact h.paramRow e
  | mode => exact h.paramRow e
  | cpr => exact h.paramRow e
  | maxPeriod => exact h.paramRow e
  | outThreshold => exact h.paramRow e
  | inThreshold => exact h.paramRow e
  | dwell => exact h.paramRow e
  | keepaliveParamWrite => exact h.paramRow e
  | augerPriority => exact h.paramRow e
  | augerCamera => exact h.paramRow e
  | augerOutput => exact h.paramRow e
  | slotNodeCode => exact h.paramRow e
  | slotMaxPriority => exact h.paramRow e
  | viewStatusTimer => exact h.event e (h.setMi.ask.ask.ite h _)
  | cameraTimer => exact h.event e (h.setMi.ask.ite h _)
  | encoderTimer => exact h.encoderTimer e
  | frameSent => exact h.event e (h.setMi.ite h _)
  | transmitError => exact h.event e (h.setMi.ite h _)
  | receiveError => exact h.event e (h.setMi.ite h _)
  | busJoin => exact h.event e (h.setMi.ite h _)
  | busOffRecovery => exact h.event e ((h.setMi.ite h.setMi _).ite h _)

end State.QueueOk

end Sys2Proof.Machine

open Sys2Proof Sys2Proof.Machine

/-- Settles O5: an idle step moves the timebase alone, and every command keeps the form of the queue. -/
theorem queueFormKept : Obligations.QueueFormKept := by
  unfold Obligations.QueueFormKept
  intro s t h e
  cases front : s.pending with
  | nil =>
    rw [step_of_pending_nil front] at e
    cases e
    exact State.QueueOk.tick h
  | cons c rest =>
    rw [step_of_pending_cons front] at e
    have waiting : State.QueueOk { s with pending := rest } := h
    exact waiting.exec c e

end

section
/-! The outbound queue, operation by operation: a message asked for, and the taking of the head (R192–R195). -/

namespace Sys2Proof.Machine

variable {mi : Interface} {m : Message} {q : List Message} {s : State}

/-! ### Entries by their keys (R192) -/

theorem queued_of_absent (absent : ∀ x ∈ q, x.key ≠ m.key) : queued m q = false := by
  rw [queued_false_iff, List.mem_map]
  rintro ⟨x, member, same⟩
  exact absent x member same

theorem replaceIn_of_absent (absent : ∀ x ∈ q, x.key ≠ m.key) : replaceIn m q = q := by
  have each : ∀ x ∈ q, (if x.key = m.key then m else x) = x := fun x member => if_neg (absent x member)
  exact (List.map_congr_left each).trans q.map_id

section
variable {pre post : List Message} {old : Message} (split : q = pre ++ old :: post) (same : old.key = m.key)
include split same

theorem queued_of_split : queued m q = true := by
  rw [queued_iff, ← same, split]
  simp

/-- The one entry of the key is replaced in its place. -/
theorem replaceIn_of_split (others : ∀ x ∈ pre ++ post, x.key ≠ m.key) : replaceIn m q = pre ++ m :: post := by
  have before := replaceIn_of_absent fun x member => others x (List.mem_append_left post member)
  have after := replaceIn_of_absent fun x member => others x (List.mem_append_right pre member)
  unfold replaceIn at before after ⊢
  rw [split, List.map_append, List.map_cons, before, after, if_pos same]

end

/-! ### Placing a message (R192, R193) -/

theorem Interface.place_of_queued (here : queued m mi.queue = true) :
    mi.place m = { mi with queue := replaceIn m mi.queue } := by
  simp only [Interface.place, here, if_true]

theorem Interface.place_of_room (absent : queued m mi.queue = false) (room : mi.queue.length < 8) :
    mi.place m = { mi with queue := mi.queue ++ [m] } := by
  simp only [Interface.place, absent, Bool.false_eq_true, if_false, if_pos room]

section
variable (absent : queued m mi.queue = false) (full : 8 ≤ mi.queue.length)
include absent full

/-- A message dropped while an OUTBOUND_DROP notice waits, which takes the new count. -/
theorem Interface.place_of_full_noticed (noticed : queued (dropNotice (bump mi.dropCount)) mi.queue = true) :
    mi.place m = { mi with
      dropCount := bump mi.dropCount, queue := replaceIn (dropNotice (bump mi.dropCount)) mi.queue } := by
  simp only [Interface.place, absent, Bool.false_eq_true, if_false, if_neg (Nat.not_lt.mpr full), noticed, if_true]

/-- A message dropped while none waits: the notice is owed. -/
theorem Interface.place_of_full_unnoticed (unnoticed : queued (dropNotice (bump mi.dropCount)) mi.queue = false) :
    mi.place m = { mi with dropCount := bump mi.dropCount, dropPending := true } := by
  simp only [Interface.place, absent, Bool.false_eq_true, if_false, if_neg (Nat.not_lt.mpr full), unnoticed]

end

/-! ### Taking the head (R193, R194) -/

theorem Interface.onBus_iff : mi.onBus = true ↔ mi.busState = .errorActive ∨ mi.busState = .errorPassive := by
  unfold Interface.onBus
  cases mi.busState <;> simp

theorem takeHead_of_ready {head : Message} {rest : List Message} (on : s.mi.onBus = true) (empty : s.mi.txBuffer = none)
    (waits : s.mi.queue = head :: rest) : takeHead s = s.setMi { s.mi with
      queue := rest ++ s.mi.owed, txBuffer := some (txFrame s head), dropPending := false } := by
  simp only [takeHead, on, empty, waits, Option.isNone_none, Bool.and_self, if_true]

/-- Off the bus, with the buffer taken or with nothing waiting, the head stays. -/
theorem takeHead_of_not_ready (not : s.mi.onBus = false ∨ s.mi.txBuffer.isSome = true ∨ s.mi.queue = []) :
    takeHead s = s := by
  rcases takeHead_cases s with stays | ⟨head, rest, on, empty, waits, -⟩
  · exact stays
  · rw [on, empty, waits] at not
    simp at not

end Sys2Proof.Machine

open Sys2Proof Sys2Proof.Machine

/-- Settles O56: the cases of placing a message, by the keys that wait, and of taking the head. -/
theorem outboundQueue : Obligations.OutboundQueue := by
  unfold Obligations.OutboundQueue
  intro s m mi q notice
  refine ⟨fun pre post old split same others => ?_,
    fun absent room => Interface.place_of_room (queued_of_absent absent) room,
    fun absent full => ⟨fun unnoticed =>
        Interface.place_of_full_unnoticed (queued_of_absent absent) full (queued_of_absent unnoticed),
      fun pre post old split same others => ?_⟩,
    rfl, fun head rest on empty waits => takeHead_of_ready (Interface.onBus_iff.mpr on) empty waits,
    fun not => takeHead_of_not_ready ?_⟩
  · rw [← replaceIn_of_split split same others]
    exact Interface.place_of_queued (queued_of_split split same)
  · rw [← replaceIn_of_split split same others]
    exact Interface.place_of_full_noticed (queued_of_absent absent) full (queued_of_split split same)
  · rcases not with joining | off | rest
    · exact .inl (by simp [Interface.onBus, show s.mi.busState = _ from joining])
    · exact .inl (by simp [Interface.onBus, show s.mi.busState = _ from off])
    · exact .inr rest

end

section
/-! The report timers and their turns (R196, R197). -/

namespace Sys2Proof.Machine

variable {s : State}

/-! ### Turns (R197) -/

theorem CamId.eq_next {c d : CamId} (follows : d.num = (c.num + 1) % 4) : d = c.next := by
  revert follows
  cases c <;> cases d <;> decide

theorem ChanId.eq_next {e d : ChanId} (follows : d.num = (e.num + 1) % 3) : d = e.next := by
  revert follows
  cases e <;> cases d <;> decide

/-- The channels from `turn` on, round again after the last. -/
def channelsFrom (turn : ChanId) : List ChanId := [turn, turn.next, turn.next.next]

theorem State.enabledInTurn_eq (s : State) :
    s.enabledInTurn = (channelsFrom s.mi.chanTurn).find? (fun e => (s.chanParams e).enable) := rfl

/-- Place `i` of the turn is the channel `i` further on. -/
theorem channelsFrom_iff (turn e : ChanId) {i : Nat} (three : i < 3) :
    (channelsFrom turn)[i]? = some e ↔ e.num = (turn.num + i) % 3 := by
  revert i
  cases turn <;> cases e <;> decide

theorem State.enabledInTurn_none (off : ∀ e, ¬(s.chanParams e).enable = true) : s.enabledInTurn = none := by
  rw [State.enabledInTurn_eq, List.find?_eq_none]
  exact fun e _ => off e

/-- An enabled channel that no enabled one stands before in the turn. -/
theorem State.enabledInTurn_some {e : ChanId} {i : Nat} (three : i < 3) (place : e.num = (s.mi.chanTurn.num + i) % 3)
    (on : (s.chanParams e).enable = true)
    (first : ∀ (d : ChanId) (j : Nat), j < i → d.num = (s.mi.chanTurn.num + j) % 3 →
      ¬(s.chanParams d).enable = true) :
    s.enabledInTurn = some e := by
  obtain ⟨inside, here⟩ := List.getElem?_eq_some_iff.mp ((channelsFrom_iff s.mi.chanTurn e three).mpr place)
  rw [State.enabledInTurn_eq, List.find?_eq_some_iff_getElem]
  refine ⟨on, i, inside, here, fun j before => ?_⟩
  have earlier := (channelsFrom_iff s.mi.chanTurn _ (before.trans three)).mp
    (List.getElem?_eq_getElem (before.trans inside))
  simpa using first _ j before earlier

/-! ### Expiries (R196, R197) -/

theorem State.setMi_chanTurn (s : State) (v : Interface) (turn : ChanId) :
    (s.setMi v).setMi { (s.setMi v).mi with chanTurn := turn } = s.setMi { v with chanTurn := turn } := rfl

theorem not_due {since now : Time} {us : Nat} (early : (now - since).toNat < us) : ¬due since now us = true :=
  mt due_iff.mp (Nat.not_le.mpr early)

section
variable (running : s.held = false)
include running

/-- A command of a running part, by what its work makes of the state. -/
theorem event_work {f : State → State} {t : State} (work : f s = t) : event f s = .next (takeHead t) := by
  rw [event_running running, work]

theorem viewStatusTimer_early (early : (s.timebase - s.mi.viewTimer).toNat < 500000) :
    exec .viewStatusTimer s = .next (takeHead s) := event_work running (if_neg (not_due early))

theorem viewStatusTimer_due (late : 500000 ≤ (s.timebase - s.mi.viewTimer).toNat) : exec .viewStatusTimer s =
    .next (takeHead (((s.setMi { s.mi with viewTimer := s.mi.viewTimer + 500000 }).ask (.viewStatus .a)).ask
      (.viewStatus .b))) := event_work running (if_pos (due_iff.mpr late))

theorem cameraTimer_early (early : (s.timebase - s.mi.camTimer).toNat < 250000) :
    exec .cameraTimer s = .next (takeHead s) := event_work running (if_neg (not_due early))

theorem cameraTimer_due (late : 250000 ≤ (s.timebase - s.mi.camTimer).toNat) : exec .cameraTimer s =
    .next (takeHead ((s.setMi { s.mi with camTimer := s.mi.camTimer + 250000, camTurn := s.mi.camTurn.next }).ask
      (.cameraStatus s.mi.camTurn))) := event_work running (if_pos (due_iff.mpr late))

theorem encoderTimer_early (early : (s.timebase - s.mi.encTimer).toNat < 250000) :
    exec .encoderTimer s = .next (takeHead s) := event_work running (if_neg (not_due early))

section
variable (late : 250000 ≤ (s.timebase - s.mi.encTimer).toNat)
include late

theorem encoderTimer_none (off : s.enabledInTurn = none) : exec .encoderTimer s =
    .next (takeHead (s.setMi { s.mi with encTimer := s.mi.encTimer + 250000 })) := by
  refine event_work running ((if_pos (due_iff.mpr late)).trans ?_)
  rw [off]

theorem encoderTimer_some {e : ChanId} (on : s.enabledInTurn = some e) : exec .encoderTimer s =
    .next (takeHead ((s.setMi { s.mi with encTimer := s.mi.encTimer + 250000, chanTurn := e.next }).ask
      (.encoderReport e))) := by
  refine event_work running ((if_pos (due_iff.mpr late)).trans ?_)
  rw [on]
  exact congrArg (fun u : State => u.ask (.encoderReport e)) (s.setMi_chanTurn _ _)

end

end

end Sys2Proof.Machine

open Sys2Proof Sys2Proof.Machine

/-- Settles O58: each timer on both sides of its period, the encoder timer by the first enabled channel of the turn. -/
theorem reportTimers : Obligations.ReportTimers := by
  unfold Obligations.ReportTimers
  intro s running mi since on encoder
  refine ⟨viewStatusTimer_early running, viewStatusTimer_due running, cameraTimer_early running,
    fun late next follows => ?_, encoderTimer_early running,
    fun late off => encoderTimer_none running late (State.enabledInTurn_none off),
    fun e next i late three place enabled first follows => ?_⟩
  · rw [CamId.eq_next follows]
    exact cameraTimer_due running late
  · rw [ChanId.eq_next follows]
    exact encoderTimer_some running late (State.enabledInTurn_some three place enabled first)

end

section
/-! The controller's events: frames sent, errors, joining and recovery (R194, R200, R201). -/

namespace Sys2Proof.Machine

variable {mi : Interface} {s : State}

/-! ### The interface with new error counts (R200, R201) -/

theorem Interface.withErrors_busOff {tx : Nat} (above : 255 < tx) (mi : Interface) (rx : Nat) :
    mi.withErrors tx rx = { mi with
      txErrors := tx, rxErrors := rx, busState := .busOff, txBuffer := none, busOffCount := bump mi.busOffCount
      recoveryRuns := 0 } := by
  simp only [Interface.withErrors, busStateOf, if_pos above]

theorem Interface.withErrors_onBus {tx : Nat} (within : ¬255 < tx) (mi : Interface) (rx : Nat) :
    mi.withErrors tx rx = { mi with
      txErrors := tx, rxErrors := rx
      busState := if 127 < tx ∨ 127 < rx then .errorPassive else .errorActive } := by
  simp only [Interface.withErrors, busStateOf, if_neg within]
  split_ifs <;> rfl

/-- New error counts with a new buffer: the buffer is lost where the counts lead off the bus. -/
theorem Interface.withErrors_buffer (mi : Interface) (tx rx : Nat) (buffer : Option TxFrame) :
    Interface.withErrors { mi with txBuffer := buffer } tx rx =
      if 255 < tx then { mi with
        txErrors := tx, rxErrors := rx, busState := .busOff, txBuffer := none, busOffCount := bump mi.busOffCount
        recoveryRuns := 0 }
      else { mi with
        txErrors := tx, rxErrors := rx, txBuffer := buffer
        busState := if 127 < tx ∨ 127 < rx then .errorPassive else .errorActive } := by
  by_cases above : 255 < tx
  · rw [if_pos above, Interface.withErrors_busOff above]
  · rw [if_neg above, Interface.withErrors_onBus above]

theorem Interface.afterFailure_some {f : TxFrame} (buffered : mi.txBuffer = some f) :
    mi.afterFailure = if f.lastTry then none else some f := by
  simp only [Interface.afterFailure, buffered]

/-! ### Whether a frame is being sent -/

theorem Interface.sends {f : TxFrame} (on : mi.onBus = true) (buffered : mi.txBuffer = some f) :
    (mi.onBus && mi.txBuffer.isSome) = true := by
  rw [on, buffered]
  rfl

theorem Interface.sends_not (idle : ¬mi.onBus = true ∨ mi.txBuffer = none) :
    ¬(mi.onBus && mi.txBuffer.isSome) = true := by
  rcases idle with off | empty
  · simp [off]
  · simp [empty]

/-! ### The events -/

section
variable (running : s.held = false)
include running

section
variable {f : TxFrame} (on : s.mi.onBus = true) (buffered : s.mi.txBuffer = some f)
include on buffered

theorem frameSent_sends : exec .frameSent s =
    .next (takeHead (s.setMi { s.mi.withErrors (s.mi.txErrors - 1) s.mi.rxErrors with txBuffer := none })) :=
  event_work running (if_pos (Interface.sends on buffered))

theorem transmitError_sends : exec .transmitError s =
    .next (takeHead (s.setMi (Interface.withErrors { s.mi with txBuffer := if f.lastTry then none else some f }
      (s.mi.txErrors + 8) s.mi.rxErrors))) := by
  rw [← Interface.afterFailure_some buffered]
  exact event_work running (if_pos (Interface.sends on buffered))

end

theorem frameSent_idle (idle : ¬s.mi.onBus = true ∨ s.mi.txBuffer = none) : exec .frameSent s = .next (takeHead s) :=
  event_work running (if_neg (Interface.sends_not idle))

theorem transmitError_idle (idle : ¬s.mi.onBus = true ∨ s.mi.txBuffer = none) :
    exec .transmitError s = .next (takeHead s) :=
  event_work running (if_neg (Interface.sends_not idle))

theorem receiveError_onBus (on : s.mi.onBus = true) : exec .receiveError s =
    .next (takeHead (s.setMi (s.mi.withErrors s.mi.txErrors (min (s.mi.rxErrors + 1) 255)))) :=
  event_work running (if_pos on)

theorem receiveError_offBus (off : ¬s.mi.onBus = true) : exec .receiveError s = .next (takeHead s) :=
  event_work running (if_neg off)

theorem busJoin_joining (joining : s.mi.busState = .joining) : exec .busJoin s =
    .next (takeHead (s.setMi { s.mi with busState := .errorActive })) := event_work running (if_pos joining)

theorem busJoin_other (other : s.mi.busState ≠ .joining) : exec .busJoin s = .next (takeHead s) :=
  event_work running (if_neg other)

section
variable {runs : Nat} (off : s.mi.busState = .busOff)
include off

theorem busOffRecovery_waits (short : s.mi.recoveryRuns + runs < 128) : exec (.busOffRecovery runs) s =
    .next (takeHead (s.setMi { s.mi with recoveryRuns := s.mi.recoveryRuns + runs })) :=
  event_work running ((if_pos off).trans (if_neg (Nat.not_le.mpr short)))

theorem busOffRecovery_recovers (enough : 128 ≤ s.mi.recoveryRuns + runs) : exec (.busOffRecovery runs) s =
    .next (takeHead (s.setMi { s.mi with
      txErrors := 0, rxErrors := 0, busState := .errorActive, recoveryRuns := 0 })) :=
  event_work running ((if_pos off).trans (if_pos enough))

end

theorem busOffRecovery_other {runs : Nat} (other : s.mi.busState ≠ .busOff) :
    exec (.busOffRecovery runs) s = .next (takeHead s) := event_work running (if_neg other)

end

end Sys2Proof.Machine

open Sys2Proof Sys2Proof.Machine

/-- Settles O59: each event by whether the controller is on the bus with a frame to send, and by the error counts it
leaves. -/
theorem busEvents : Obligations.BusEvents := by
  unfold Obligations.BusEvents
  intro s runs running mi onBus out counted
  have on_iff : s.mi.onBus = true ↔ onBus := Interface.onBus_iff
  have counts (tx rx : Nat) (buffer : Option TxFrame) :
      Interface.withErrors { mi with txBuffer := buffer } tx rx = counted tx rx buffer :=
    mi.withErrors_buffer tx rx buffer
  refine ⟨fun f on buffered => ⟨fun within => ?_, ?_⟩, fun idle => ?_, fun on within => ?_,
    fun off => receiveError_offBus running (mt on_iff.mp off), busJoin_joining running, busJoin_other running,
    busOffRecovery_waits running, busOffRecovery_recovers running, busOffRecovery_other running⟩
  · have lowered : ¬255 < mi.txErrors - 1 := by omega
    have sent := frameSent_sends running (on_iff.mpr on) buffered
    rw [Interface.withErrors_onBus lowered] at sent
    simp only [out, counted, if_neg lowered]
    exact sent
  · simp only [out, ← counts]
    exact transmitError_sends running (on_iff.mpr on) buffered
  · have idle' : ¬s.mi.onBus = true ∨ s.mi.txBuffer = none := idle.imp_left (mt on_iff.mp)
    exact ⟨frameSent_idle running idle', transmitError_idle running idle'⟩
  · simp only [out, ← counts]
    exact receiveError_onBus running (on_iff.mpr on)

end

section
/-! Rows of the table that are COMMAND messages (R190): one bit set beside those the row came with. -/

namespace Sys2Proof.Machine

variable {s : State}

/-- A row of one command bit is the COMMAND to its target with that bit set. -/
theorem bitCommand_eq_command (s : State) (node : Byte) (t : Target) (bits : Word) (i : Nat) :
    event (onReceipt (bitCommand node t bits i false)) s =
      exec (.command node t.byte (bits ||| BitVec.twoPow 16 i)) s := rfl

/-- A row with which the reference offers a tap is the COMMAND in the state in which it offers that tap. -/
theorem offered_bitCommand (running : s.held = false) (onBus : s.mi.onBus = true) (node : Byte) (t : Target) (bits : Word)
    (i : Nat) (c : CamId) (offered : Tap) :
    event (onReceipt (fun u => bitCommand node t bits i false (u.setOffered c offered))) s =
      exec (.command node t.byte (bits ||| BitVec.twoPow 16 i)) (s.setOffered c offered) := by
  have running' : (s.setOffered c offered).held = false := running
  have onBus' : (s.setOffered c offered).mi.onBus = true := onBus
  rw [← bitCommand_eq_command, event_running running, onReceipt_onBus onBus, event_running running',
    onReceipt_onBus onBus']
  rfl

/-- Off BUS_OFF a SOFT_RESET that finds the buffered frame not begun is the COMMAND to the device with bit 0. -/
theorem softReset_eq_command (on : s.mi.busState ≠ .busOff) (node : Byte) (bits : Word) :
    exec (.softReset node bits false) s = exec (.command node Target.device.byte (bits ||| BitVec.twoPow 16 0)) s := by
  rw [← bitCommand_eq_command]
  simp only [exec, execSoftReset, event, if_neg on]

end Sys2Proof.Machine

open Sys2Proof Sys2Proof.Machine

/-- Settles O30: each row is the COMMAND with its bit; a forced tap update in the state in which the tap is offered, and a
soft reset off BUS_OFF. -/
theorem commandRowsAreMessages : Obligations.CommandRowsAreMessages := by
  unfold Obligations.CommandRowsAreMessages
  intro s node c e bits offered
  have camera (i : Nat) := bitCommand_eq_command s node (.camera c) bits i
  have encoder (i : Nat) := bitCommand_eq_command s node (.encoder e) bits i
  exact ⟨camera 0, camera 1, camera 2,
    fun running onBus => offered_bitCommand running onBus node (.camera c) bits 3 c offered, camera 4,
    encoder 0, encoder 1, encoder 2, encoder 3, fun on => softReset_eq_command on node bits⟩

end

section
/-! The bytes of the outbound messages (R186, R195, R199, "Message layouts"). -/

namespace Sys2Proof.Machine

variable {s : State} {o : OutId} {c : CamId}

/-! ### Numbers in bytes -/

theorem byteOf_zero (n : Nat) : byteOf n 0 = BitVec.ofNat 8 n := by simp [byteOf]

/-- Byte `i` of a bit vector, least significant first. -/
theorem byteOf_toNat {w : Nat} (v : BitVec w) (i : Nat) : byteOf v.toNat i = v.extractLsb' (8 * i) 8 := by
  apply BitVec.eq_of_toNat_eq
  rw [byteOf, BitVec.toNat_ofNat, BitVec.extractLsb'_toNat, Nat.shiftRight_eq_div_pow, Nat.pow_mul]

theorem bytes2_toNat (v : Word) : bytes2 v.toNat = [v.extractLsb' 0 8, v.extractLsb' 8 8] := by
  rw [bytes2, byteOf_toNat, byteOf_toNat]

/-- Two bytes carry a number modulo 2^16. -/
theorem bytes2_ofNat (n : Nat) : bytes2 n = bytes2 (BitVec.ofNat 16 n).toNat := by
  have low : n % 2 ^ 16 % 2 ^ 8 = n % 2 ^ 8 := Nat.mod_mod_of_dvd n (by decide)
  have high : n % 2 ^ 16 / 256 % 2 ^ 8 = n / 256 % 2 ^ 8 := by omega
  simp only [bytes2, byteOf, BitVec.toNat_ofNat, pow_zero, pow_one, Nat.div_one, List.cons.injEq, and_true]
  exact ⟨BitVec.eq_of_toNat_eq low.symm, BitVec.eq_of_toNat_eq high.symm⟩

theorem bytes4_eq (v : BitVec 32) :
    bytes4 v = [v.extractLsb' 0 8, v.extractLsb' 8 8, v.extractLsb' 16 8, v.extractLsb' 24 8] := by
  rw [bytes4, byteOf_toNat, byteOf_toNat, byteOf_toNat, byteOf_toNat]

/-! ### VIEW STATUS -/

theorem viewStatusBytes_eq (s : State) (o : OutId) : viewStatusBytes s o =
    [BitVec.ofNat 8 o.num, (s.outGrant o).holder.elim 0xFF (fun h => BitVec.ofNat 8 h.num),
      BitVec.ofNat 8 (s.output o).shown.layout.code, BitVec.ofNat 8 (s.output o).shown.camA.num,
      BitVec.ofNat 8 (s.output o).shown.camBReported.num, BitVec.ofNat 8 (s.output o).win1.border.code,
      BitVec.ofNat 8 (s.output o).borderB.code, BitVec.ofNat 8 (s.holderPriority o)] := by
  unfold viewStatusBytes
  cases (s.outGrant o).holder <;> simp [byteOf_zero]

theorem State.holderPriority_default (vacant : (s.outGrant o).holder = none) : s.holderPriority o = 0 := by
  simp only [State.holderPriority, State.holderEntry?, vacant]

theorem State.holderPriority_held {h : Requester} (held : (s.outGrant o).holder = some h) :
    s.holderPriority o = (s.entry? o h).elim 0 (·.priority) := by
  simp only [State.holderPriority, State.holderEntry?, held, State.entry?]
  cases (s.requests o).get h <;> rfl

/-- In FULL the second border repeats the first (R146). -/
theorem Compositor.borderB_full {oc : Compositor} {a : CamId} (full : oc.shown = .full a) :
    oc.borderB = oc.win1.border := by
  simp only [Compositor.borderB, full]

theorem Compositor.borderB_split {oc : Compositor} {a a' : CamId} (split : oc.shown = .split a a') :
    oc.borderB = oc.win2.border := by
  simp only [Compositor.borderB, split]

/-! ### CAMERA STATUS -/

theorem Ring.newestReady?_none {r : Ring} (unready : ∀ k ∈ r.order, (r.slots.get k).state ≠ .ready) :
    r.newestReady? = none := by
  rw [Ring.newestReady?, List.find?_eq_none]
  intro k member
  simpa using unready k (List.mem_reverse.mp member)

/-- The newest READY slot is the READY one after which the order holds no READY one (R51). -/
theorem Ring.newestReady?_some {r : Ring} {older newer : List SlotId} {k : SlotId}
    (order : r.order = older ++ k :: newer) (ready : (r.slots.get k).state = .ready)
    (unready : ∀ j ∈ newer, (r.slots.get j).state ≠ .ready) :
    r.newestReady? = some k := by
  rw [Ring.newestReady?, order, List.reverse_append, List.reverse_cons, List.append_assoc, List.find?_append]
  have none : newer.reverse.find? (fun k => (r.slots.get k).state = .ready) = none := by
    rw [List.find?_eq_none]
    intro j member
    simpa using unready j (List.mem_reverse.mp member)
  rw [none]
  simp [ready]

theorem cameraStatusBytes_none (none : s.newestRecord? c = none) : cameraStatusBytes s c =
    [BitVec.ofNat 8 c.num, BitVec.ofNat 8 (s.link c).state.code, 0, BitVec.ofNat 8 (s.screen c).rejectedRun] ++
      bytes2 (BitVec.ofInt 16 0).toNat ++ bytes2 (BitVec.ofInt 16 0).toNat := by
  simp only [cameraStatusBytes, none, byteOf_zero, signed2]
  rfl

theorem cameraStatusBytes_some {r : Record} (newest : s.newestRecord? c = some r) : cameraStatusBytes s c =
    [BitVec.ofNat 8 c.num, BitVec.ofNat 8 (s.link c).state.code, BitVec.ofNat 8 (verdictByte r),
      BitVec.ofNat 8 (s.screen c).rejectedRun] ++
      bytes2 (BitVec.ofInt 16 (r.shift.getD ⟨0, 0⟩).x).toNat ++
      bytes2 (BitVec.ofInt 16 (r.shift.getD ⟨0, 0⟩).y).toNat := by
  simp only [cameraStatusBytes, newest, byteOf_zero, signed2]
  rfl

theorem verdictByte_eq (r : Record) : verdictByte r = verdictCode r.verdict +
    4 * r.meas.elim 0 (fun m => (m.get .x).result.code) + 32 * r.meas.elim 0 (fun m => (m.get .y).result.code) := by
  unfold verdictByte
  cases r.meas <;> rfl

/-! ### ENCODER REPORT -/

/-- The period in units of 100 µs, 0 when invalid. -/
theorem encoderReportBytes_eq (s : State) (e : ChanId) : encoderReportBytes s e =
    [BitVec.ofNat 8 e.num, BitVec.ofNat 8 ((s.channel e).state.code + 16 * (s.channel e).auger.code)] ++
      bytes4 (BitVec.ofInt 32 (s.channel e).position) ++ bytes2 ((s.channel e).period.elim 0 (· / 100)) := by
  simp only [encoderReportBytes, byteOf_zero]
  cases (s.channel e).period <;> rfl

end Sys2Proof.Machine

open Sys2Proof Sys2Proof.Machine

/-- Settles O57: the codes by their lists, and each kind's bytes by the layout's lemma. -/
theorem outboundBytes : Obligations.OutboundBytes := by
  unfold Obligations.OutboundBytes
  refine ⟨by decide, ?_⟩
  intro s node target number value w r f subject count o c e b two four sends oc holder priority camera ready ch
  have priority_eq : b (s.holderPriority o) = priority := by
    cases held : (s.outGrant o).holder with
    | none => simp only [priority, held, State.holderPriority_default held]; rfl
    | some h =>
      simp only [priority, held, State.holderPriority_held held]
      cases s.entry? o h <;> rfl
  have two_eq (n : Nat) : bytes2 n = two (BitVec.ofNat 16 n) := (bytes2_ofNat n).trans (bytes2_toNat _)
  refine ⟨⟨rfl, ?_⟩, fun a full => ⟨rfl, ?_⟩, fun a a' split => ⟨rfl, ?_⟩, fun unready => ⟨rfl, ?_⟩,
    fun older k newer x order isReady unready record => ⟨rfl, ?_⟩, ⟨rfl, ?_⟩, ⟨rfl, ?_⟩, ⟨rfl, ?_⟩⟩
  · simp only [messageBytes, byteOf_zero]
    rfl
  · refine (viewStatusBytes_eq s o).trans ?_
    rw [Compositor.borderB_full full, show (s.output o).shown = .full a from full, ← priority_eq]
    rfl
  · refine (viewStatusBytes_eq s o).trans ?_
    rw [Compositor.borderB_split split, show (s.output o).shown = .split a a' from split, ← priority_eq]
    rfl
  · have none : s.newestRecord? c = none := by
      rw [State.newestRecord?, Ring.newestReady?_none unready]
    refine (cameraStatusBytes_none none).trans ?_
    rw [bytes2_toNat]
    rfl
  · have newest : s.newestRecord? c = some x := by
      rw [State.newestRecord?, Ring.newestReady?_some order isReady unready]
      exact record
    refine (cameraStatusBytes_some newest).trans ?_
    rw [bytes2_toNat, bytes2_toNat, verdictByte_eq]
    cases x.verdict with
    | none => rfl
    | some v => cases v <;> rfl
  · simp only [messageBytes, byteOf_zero, bytes2_toNat, bytes4_eq]
    rfl
  · refine (encoderReportBytes_eq s e).trans ?_
    rw [bytes4_eq, two_eq]
  · simp only [messageBytes, byteOf_zero, two_eq]
    rfl

end

section
/-! The part as it starts (R211): what each block reads after POWER_ON, RESET_LINE and RESET_LINE_ACTIVE, and that the
properties which every step keeps hold from the start. -/

namespace Sys2Proof.Machine

/-! ### What the parts of a started part read -/

section
variable (l : BootLevels) (c : CamId) (e : ChanId) (o : OutId)

@[simp] theorem State.start_link : (State.start l).link c = .initial := PerCam.get_same _ c
@[simp] theorem State.start_ring : (State.start l).ring c = .initial := PerCam.get_same _ c
@[simp] theorem State.start_slot (k : SlotId) : (State.start l).slot c k = .initial := by
  rw [State.slot, State.start_ring]
  exact PerSlot.get_same _ k
@[simp] theorem State.start_screen : (State.start l).screen c = .initial := PerCam.get_same _ c
@[simp] theorem State.start_context : (State.start l).context c = .initial := PerCam.get_same _ c
@[simp] theorem State.start_table : (State.start l).table c = .initial := PerCam.get_same _ c
@[simp] theorem State.start_channel : (State.start l).channel e = .initial (l.encoders.get e) := PerChan.get_map _ _ e
@[simp] theorem State.start_requests : (State.start l).requests o = .vacant := by cases o <;> rfl
@[simp] theorem State.start_outGrant : (State.start l).outGrant o = .initial := by cases o <;> rfl
@[simp] theorem State.start_still : (State.start l).still o = .initial := by cases o <;> rfl
@[simp] theorem State.start_entry (r : Requester) : (State.start l).entry? o r = none := by
  rw [State.entry?, State.start_requests]
  cases r with
  | auger => rfl
  | master k => exact PerReq.get_same none k

/-- Each output starts on its default camera, FULL, with the other camera's window idle (R150). -/
theorem State.start_output :
    (State.start l).output o = .initial (if o = .a then .cam0 else .cam1) (if o = .a then .cam1 else .cam0) := by
  cases o <;> rfl

end

/-! ### The properties that every step keeps, at the start -/

section
variable (l : BootLevels)

theorem State.start_screensOk : (State.start l).ScreensOk := fun c => by
  rw [State.start_screen]
  exact Nat.zero_le _

theorem State.start_tablesOk : (State.start l).TablesOk := fun c => by
  rw [State.start_table]
  exact ⟨List.length_replicate, fun _ member => List.eq_of_mem_replicate member ▸ Bin.empty_inRange⟩

/-- Every channel starts disabled, as ENABLE defaults to 0. -/
theorem State.start_channelsOk : (State.start l).ChannelsOk := fun e => by
  rw [State.start_channel]
  exact Channel.initial_ok Params.default_inRange e (by cases e <;> rfl) _

theorem State.start_holdersOk : (State.start l).HoldersOk := fun o => by
  rw [State.start_outGrant]
  exact ⟨State.start_entry l o, rfl⟩

theorem State.start_ordersOk : (State.start l).OrdersOk := fun o =>
  ⟨fun r e entry => by simp at entry, by rw [State.start_outGrant]; exact le_refl 0⟩

theorem State.start_augerOk : (State.start l).AugerOk :=
  .of_vacant (fun due => by simp [State.AugerDue, Channel.initial] at due) fun o => State.start_entry l o .auger

end

/-! ### Commands of a held part (R211) -/

/-- Every command but POWER_ON, RESET_LINE, RESET_LINE_ACTIVE and SETUP_LINE_CHANGE is work of the running part. -/
theorem exec_eq_event {i : Instr} (power : ∀ l, i ≠ .powerOn l) (reset : ∀ l, i ≠ .resetLine l)
    (setup : ∀ b, i ≠ .setupLineChange b) (active : i ≠ .resetLineActive) : ∃ f, ∀ s, exec i s = event f s := by
  cases i with
  | powerOn l => exact absurd rfl (power l)
  | resetLine l => exact absurd rfl (reset l)
  | setupLineChange b => exact absurd rfl (setup b)
  | resetLineActive => exact absurd rfl active
  | _ => exact ⟨_, fun _ => rfl⟩

/-- The state in which RESET_LINE_ACTIVE holds the part. -/
def State.resetHeld (s : State) : State := { s.powerUp s.pinLevels with held := true }

theorem exec_resetLineActive (s : State) : exec .resetLineActive s = .next s.resetHeld := rfl

theorem State.rasterPixel_held {s : State} (held : s.held = true) (o : OutId) (x y : Nat) :
    s.rasterPixel o x y = Config.black := if_pos held

end Sys2Proof.Machine

open Sys2Proof Sys2Proof.Machine

/-- Settles O2: both commands answer `State.powerUp`, each block of which is the initial one of its chapter. -/
theorem powerUpState : Obligations.PowerUpState := by
  unfold Obligations.PowerUpState
  intro l s
  have links (c : CamId) : (s.powerUp l).link c = .initial := State.start_link l c
  have rings (c : CamId) : (s.powerUp l).ring c = .initial := State.start_ring l c
  have slots (c : CamId) (k : SlotId) : (s.powerUp l).slot c k = .initial := State.start_slot l c k
  have screens (c : CamId) : (s.powerUp l).screen c = .initial := State.start_screen l c
  have contexts (c : CamId) : (s.powerUp l).context c = .initial := State.start_context l c
  have tables (c : CamId) : (s.powerUp l).table c = .initial := State.start_table l c
  have channels (e : ChanId) : (s.powerUp l).channel e = .initial (l.encoders.get e) := State.start_channel l e
  have outputs (o : OutId) : (s.powerUp l).output o = _ := State.start_output l o
  have grants (o : OutId) : (s.powerUp l).outGrant o = .initial := State.start_outGrant l o
  have stills (o : OutId) : (s.powerUp l).still o = .initial := State.start_still l o
  refine ⟨s.powerUp l, rfl, rfl, ⟨rfl, rfl, rfl, rfl, rfl⟩, fun c => ?_, fun e => ?_, fun c => ?_, screens,
    ⟨rfl, fun c => ?_⟩, tables, ⟨rfl, rfl, fun o => ?_⟩, ⟨fun k => ?_, fun o => ?_⟩, ⟨rfl, rfl, fun o => ?_⟩, ?_⟩
  · simp [links, Link.initial]
  · simp [channels, Channel.initial]
  · simp [slots, rings, Slot.initial, Ring.initial]
  · simp [contexts, Context.initial, XY.same]
  · simp [outputs, Compositor.initial, Window.initial]
  · exact ⟨PerReq.get_same none k, PerReq.get_same 0 k⟩
  · have entries (r : Requester) : (s.powerUp l).entry? o r = none := State.start_entry l o r
    simp [entries, grants, OutGrant.initial]
  · simp [stills, Still.initial]
  · exact ⟨rfl, rfl, rfl, rfl, rfl, rfl, rfl, rfl, rfl, rfl, rfl, rfl, rfl, rfl, rfl⟩

/-- Settles O3: the properties hold of a part that starts on any pin levels. -/
theorem resetSatisfiesInvariants : Obligations.ResetSatisfiesInvariants := by
  have displays := State.DisplaysOk.start lowLevels
  have cleared := State.Moves.start_cleared lowLevels
  exact ⟨.initial _ _, Params.default_inRange, State.start_screensOk _, State.start_tablesOk _, State.RowsOk.start _,
    State.start_channelsOk _, State.start_holdersOk _, State.start_ordersOk _, State.start_augerOk _, displays.1,
    displays.2, cleared.storeOk, cleared.pinsOk⟩

/-- Settles O4: RESET_LINE_ACTIVE answers a held part just started; a held part ignores every event of the running one. -/
theorem resetAndSetupLines : Obligations.ResetAndSetupLines := by
  unfold Obligations.ResetAndSetupLines
  refine ⟨fun s => ⟨s.resetHeld, exec_resetLineActive s, rfl, rfl, rfl, rfl, rfl, rfl, rfl, rfl, ?_, ?_, ?_⟩,
    fun i s held power reset setup active => ?_, fun level s => rfl⟩
  · exact State.start_entry s.pinLevels
  · exact fun c k => congrArg Slot.state (State.start_slot s.pinLevels c k)
  · exact State.rasterPixel_held rfl
  · obtain ⟨f, work⟩ := exec_eq_event power reset setup active
    rw [work, event_held held]

end

section
/-! The table of writable parameters by its numbers (R203): a number names a parameter exactly when it is that parameter's
own. -/

namespace Sys2Proof.Machine

/-! ### Numbered things -/

theorem CamId.ofNat?_eq_some {n : Nat} {c : CamId} : CamId.ofNat? n = some c ↔ c.num = n := by
  refine ⟨fun named => ?_, fun number => number ▸ by cases c <;> rfl⟩
  match n, named with
  | 0, rfl | 1, rfl | 2, rfl | 3, rfl => rfl

theorem ChanId.ofNat?_eq_some {n : Nat} {e : ChanId} : ChanId.ofNat? n = some e ↔ e.num = n := by
  refine ⟨fun named => ?_, fun number => number ▸ by cases e <;> rfl⟩
  match n, named with
  | 0, rfl | 1, rfl | 2, rfl => rfl

theorem OutId.ofNat?_eq_some {n : Nat} {o : OutId} : OutId.ofNat? n = some o ↔ o.num = n := by
  refine ⟨fun named => ?_, fun number => number ▸ by cases o <;> rfl⟩
  match n, named with
  | 0, rfl | 1, rfl => rfl

/-- In a list without repetition the place of what stands at place `i` is `i`. -/
theorem idxOf_of_getElem? {α : Type} [DecidableEq α] {l : List α} (distinct : l.Nodup) {i : Nat} {a : α}
    (at_i : l[i]? = some a) : l.idxOf a = i := by
  obtain ⟨inside, here⟩ := List.getElem?_eq_some_iff.mp at_i
  rw [← here, distinct.idxOf_getElem]

theorem ReqSlot.num_of_all {i : Nat} {k : ReqSlot} (at_i : ReqSlot.all[i]? = some k) : k.num = i + 1 := by
  rw [← idxOf_of_getElem? (by decide) at_i]
  cases k <;> rfl

/-! ### What a number names -/

/-- A number that names a parameter is its own, group by group: cameras, channels, outputs, arbiter, requester slots. -/
theorem number_of_paramOf {n : Nat} {id : ParamId} (named : paramOf n = some id) : id.number = n := by
  unfold paramOf at named
  split_ifs at named
  · split at named <;> cases named
    next c p camera offset =>
      have base := CamId.ofNat?_eq_some.mp camera
      have place := idxOf_of_getElem? (by decide) offset
      simp only [ParamId.number, base, place]
      omega
  · split at named <;> cases named
    next e p channel offset =>
      have base := ChanId.ofNat?_eq_some.mp channel
      have place := idxOf_of_getElem? (by decide) offset
      simp only [ParamId.number, base, place]
      omega
  · split at named <;> cases named
    next o p output offset =>
      have base := OutId.ofNat?_eq_some.mp output
      have place := idxOf_of_getElem? (by decide) offset
      simp only [ParamId.number, base, place]
      omega
  · have numbers : ∀ x ∈ [ParamId.dwell, .keepalive, .augerOutput, .augerCamera, .augerPriority],
        x.number = 0x400 + [ParamId.dwell, .keepalive, .augerOutput, .augerCamera, .augerPriority].idxOf x := by decide
    have number := numbers id (List.mem_of_getElem? named)
    have place := idxOf_of_getElem? (by decide) named
    omega
  all_goals
    obtain ⟨k, slot, rfl⟩ := Option.map_eq_some_iff.mp named
    have base := ReqSlot.num_of_all slot
    simp only [ParamId.number, base]
    omega

theorem paramOf_eq_some {n : Nat} {id : ParamId} : paramOf n = some id ↔ id.number = n :=
  ⟨number_of_paramOf, fun number => number ▸ paramOf_number id⟩

theorem paramOf_eq_none {n : Nat} (others : ∀ id : ParamId, id.number ≠ n) : paramOf n = none :=
  Option.eq_none_iff_forall_ne_some.mpr fun id named => others id (paramOf_eq_some.mp named)

end Sys2Proof.Machine

open Sys2Proof Sys2Proof.Machine

/-- Settles O54: the rows of each group by its members, and the numbers by `paramOf_eq_some`. -/
theorem parameterTable : Obligations.ParameterTable := by
  unfold Obligations.ParameterTable
  dsimp only
  refine ⟨fun c => ?_, fun e => ?_, fun o => ?_, ?_, ?_, fun n id => paramOf_eq_some, ⟨rfl, rfl, rfl⟩,
    fun p c e o k => ⟨rfl, rfl, ?_, rfl⟩⟩
  · cases c <;> decide
  · cases e <;> decide
  · cases o <;> decide
  · decide
  · decide
  · simp only [List.map_cons, List.map_nil, Params.read, OutParams.read]
    cases (p.outs.get o).defaultLayout <;> rfl

end

section
/-! Reading by number (R203, R208, R209): the areas of read-only items, what stands at each number, and the items as R209 lists
them. -/

namespace Sys2Proof

theorem CamId.mem_all (c : CamId) : c ∈ CamId.all := by cases c <;> decide
theorem ChanId.mem_all (e : ChanId) : e ∈ ChanId.all := by cases e <;> decide
theorem OutId.mem_all (o : OutId) : o ∈ OutId.all := by cases o <;> decide

theorem CamId.num_lt (c : CamId) : c.num < 4 := by cases c <;> decide
theorem ChanId.num_lt (e : ChanId) : e.num < 3 := by cases e <;> decide
theorem OutId.num_lt (o : OutId) : o.num < 2 := by cases o <;> decide
theorem ReqSlot.num_bounds (k : ReqSlot) : 1 ≤ k.num ∧ k.num ≤ 6 := by cases k <;> decide
theorem Requester.num_lt (r : Requester) : r.num < 7 := by
  cases r with
  | auger => decide
  | master k => cases k <;> decide

theorem ReqSlot.all_num (k : ReqSlot) : ReqSlot.all[k.num - 1]? = some k := by cases k <;> rfl
theorem Requester.all_num (r : Requester) : Requester.all[r.num]? = some r := by
  cases r with
  | auger => rfl
  | master k => cases k <;> rfl

end Sys2Proof

namespace Sys2Proof.Machine

variable {s : State} {n base : Nat} {v : Int}

/-! ### The areas of read-only items -/

/-- The items of a phase table, bin by bin: Tx, Ty, Cx, Cy. -/
def PhaseTable.items (t : PhaseTable) : List Int :=
  (List.range Config.bins).flatMap fun k => [(t.bin k).value.x, (t.bin k).value.y, ((t.bin k).conf.x : Int), (t.bin k).conf.y]

/-- The areas that read-only items stand in: the number of an area's first item, and its items. -/
inductive State.Area (s : State) : Nat → List Int → Prop
  | device : s.Area 0 s.deviceItems
  | part : s.Area 0x800 s.partItems
  | engines : s.Area 0xD00 (engineItems s.engine ++ copierItems s.stillUnit)
  | camera (c : CamId) : s.Area (0x900 + 0x40 * c.num) (s.cameraItems c)
  | table (c : CamId) : s.Area (0xB00 + 0x80 * c.num) (s.table c).items
  | channel (e : ChanId) : s.Area (0xA00 + 0x20 * e.num) (channelItems (s.channel e))
  | requester (k : ReqSlot) : s.Area (0xD40 + 3 * (k.num - 1)) (requesterItems s.arbiter k)
  | request (r : Requester) (o : OutId) : s.Area (0xE00 + 0x10 * (2 * r.num + o.num)) (entryItems (s.entry? o r))
  | output (o : OutId) : s.Area (0xF00 + 0x40 * o.num) (s.outputItems o)

/-- The areas, listed. -/
def State.itemAreas (s : State) : List (Nat × List Int) :=
  [(0, s.deviceItems), (0x800, s.partItems), (0xD00, engineItems s.engine ++ copierItems s.stillUnit)] ++
    CamId.all.map (fun c => (0x900 + 0x40 * c.num, s.cameraItems c)) ++
    CamId.all.map (fun c => (0xB00 + 0x80 * c.num, (s.table c).items)) ++
    ChanId.all.map (fun e => (0xA00 + 0x20 * e.num, channelItems (s.channel e))) ++
    ReqSlot.all.map (fun k => (0xD40 + 3 * (k.num - 1), requesterItems s.arbiter k)) ++
    Requester.all.flatMap (fun r =>
      OutId.all.map (fun o => (0xE00 + 0x10 * (2 * r.num + o.num), entryItems (s.entry? o r)))) ++
    OutId.all.map (fun o => (0xF00 + 0x40 * o.num, s.outputItems o))

theorem State.mem_itemAreas {items : List Int} : (base, items) ∈ s.itemAreas ↔ s.Area base items := by
  simp only [State.itemAreas, List.mem_append, List.mem_cons, List.not_mem_nil, or_false, List.mem_map, List.mem_flatMap,
    CamId.mem_all, ChanId.mem_all, OutId.mem_all, ReqSlot.mem_all, requester_mem_all, true_and, Prod.mk.injEq, or_assoc]
  constructor
  · rintro (⟨rfl, rfl⟩ | ⟨rfl, rfl⟩ | ⟨rfl, rfl⟩ | ⟨c, rfl, rfl⟩ | ⟨c, rfl, rfl⟩ | ⟨e, rfl, rfl⟩ | ⟨k, rfl, rfl⟩ |
      ⟨r, o, rfl, rfl⟩ | ⟨o, rfl, rfl⟩)
    exacts [.device, .part, .engines, .camera c, .table c, .channel e, .requester k, .request r o, .output o]
  · intro area
    cases area with
    | device => exact .inl ⟨rfl, rfl⟩
    | part => exact .inr (.inl ⟨rfl, rfl⟩)
    | engines => exact .inr (.inr (.inl ⟨rfl, rfl⟩))
    | camera c => exact .inr (.inr (.inr (.inl ⟨c, rfl, rfl⟩)))
    | table c => exact .inr (.inr (.inr (.inr (.inl ⟨c, rfl, rfl⟩))))
    | channel e => exact .inr (.inr (.inr (.inr (.inr (.inl ⟨e, rfl, rfl⟩)))))
    | requester k => exact .inr (.inr (.inr (.inr (.inr (.inr (.inl ⟨k, rfl, rfl⟩))))))
    | request r o => exact .inr (.inr (.inr (.inr (.inr (.inr (.inr (.inl ⟨r, o, rfl, rfl⟩)))))))
    | output o => exact .inr (.inr (.inr (.inr (.inr (.inr (.inr (.inr ⟨o, rfl, rfl⟩)))))))

/-! ### How many items an area holds -/

theorem State.partItems_length (s : State) : s.partItems.length = 18 := rfl
theorem newestItems_length (r : Option Record) : (newestItems r).length = 4 := by cases r <;> rfl
theorem sourceItems_length (w : Option WinSource) : (sourceItems w).length = 4 := by cases w <;> rfl
theorem entryItems_length (e : Option Entry) : (entryItems e).length = 7 := by cases e <;> rfl
theorem windowItems_length (w : Option Window) : (windowItems w).length = 5 := by cases w <;> rfl
theorem grantItems_length (g : Option View) : (grantItems g).length = 4 := by cases g <;> rfl

theorem State.cameraItems_length (s : State) (c : CamId) : (s.cameraItems c).length = 60 := by
  simp only [State.cameraItems, List.length_append, newestItems_length]
  rfl
theorem copierItems_length (u : StillUnit) : (copierItems u).length = 15 := by
  simp only [copierItems, List.length_append, sourceItems_length]
  rfl
theorem engineItems_copierItems_length (e : Engine) (u : StillUnit) : (engineItems e ++ copierItems u).length = 27 := by
  rw [List.length_append, copierItems_length]
  rfl
theorem State.outputItems_length (s : State) (o : OutId) : (s.outputItems o).length = 41 := by
  simp only [State.outputItems, compositorItems, stillItems, List.length_append, sourceItems_length, windowItems_length,
    grantItems_length]
  rfl
theorem PhaseTable.items_length (t : PhaseTable) : t.items.length = 128 := by
  simp [PhaseTable.items, List.length_flatMap, Config.bins]

/-- An item of a list of lists of one length stands at its place in the list it is of. -/
theorem getElem?_flatMap_of_length {α β : Type} {w : Nat} {f : α → List β} (l : List α) (lengths : ∀ x, (f x).length = w)
    (positive : 0 < w) (i : Nat) : (l.flatMap f)[i]? = (l[i / w]?).bind fun x => (f x)[i % w]? := by
  induction l generalizing i with
  | nil => simp
  | cons x rest ih =>
    rw [List.flatMap_cons]
    by_cases here : i < w
    · rw [List.getElem?_append_left (by rwa [lengths]), Nat.div_eq_of_lt here, Nat.mod_eq_of_lt here]
      rfl
    · have beyond : w ≤ i := Nat.le_of_not_lt here
      rw [List.getElem?_append_right (by rwa [lengths]), lengths, ih, Nat.div_eq_sub_div positive beyond,
        Nat.mod_eq_sub_mod beyond]
      rfl

theorem binItem_eq (t : PhaseTable) (i : Nat) : binItem t i = t.items[i]? := by
  by_cases inside : i < 128
  · have row : i / 4 < Config.bins := by unfold Config.bins; omega
    rw [PhaseTable.items, getElem?_flatMap_of_length (w := 4) _ (fun _ => rfl) (by decide), List.getElem?_range row, binItem,
      if_pos inside]
    rfl
  · rw [binItem, if_neg inside, List.getElem?_eq_none (by rw [PhaseTable.items_length]; omega)]

/-! ### What stands at a number -/

theorem Requester.num_of_ofNat? {r : Requester} (named : Requester.ofNat? n = some r) : r.num = n := by
  rw [← idxOf_of_getElem? (l := Requester.all) (by decide) named]
  cases r with
  | auger => rfl
  | master k => cases k <;> rfl

section
variable (s : State)

theorem State.readOnlyItem_device (high : n < 0x10) : s.readOnlyItem n = s.deviceItems[n]? := if_pos high
theorem State.readOnlyItem_gap (low : 0x10 ≤ n) (high : n < 0x800) : s.readOnlyItem n = none := by
  rw [State.readOnlyItem, if_neg (by omega), if_pos high]
theorem State.readOnlyItem_part (low : 0x800 ≤ n) (high : n < 0x900) : s.readOnlyItem n = s.partItems[n - 0x800]? := by
  rw [State.readOnlyItem, if_neg (by omega), if_neg (by omega), if_pos high]
theorem State.readOnlyItem_camera (low : 0x900 ≤ n) (high : n < 0xA00) : s.readOnlyItem n =
    (CamId.ofNat? ((n - 0x900) / 0x40)).bind (fun c => (s.cameraItems c)[(n - 0x900) % 0x40]?) := by
  rw [State.readOnlyItem, if_neg (by omega), if_neg (by omega), if_neg (by omega), if_pos high]
theorem State.readOnlyItem_channel (low : 0xA00 ≤ n) (high : n < 0xB00) : s.readOnlyItem n =
    (ChanId.ofNat? ((n - 0xA00) / 0x20)).bind (fun e => (channelItems (s.channel e))[(n - 0xA00) % 0x20]?) := by
  rw [State.readOnlyItem, if_neg (by omega), if_neg (by omega), if_neg (by omega), if_neg (by omega), if_pos high]
theorem State.readOnlyItem_table (low : 0xB00 ≤ n) (high : n < 0xD00) : s.readOnlyItem n =
    (CamId.ofNat? ((n - 0xB00) / 0x80)).bind (fun c => (s.table c).items[(n - 0xB00) % 0x80]?) := by
  simp only [← binItem_eq]
  rw [State.readOnlyItem, if_neg (by omega), if_neg (by omega), if_neg (by omega), if_neg (by omega), if_neg (by omega),
    if_pos high]
theorem State.readOnlyItem_engines (low : 0xD00 ≤ n) (high : n < 0xD40) :
    s.readOnlyItem n = (engineItems s.engine ++ copierItems s.stillUnit)[n - 0xD00]? := by
  rw [State.readOnlyItem, if_neg (by omega), if_neg (by omega), if_neg (by omega), if_neg (by omega), if_neg (by omega),
    if_neg (by omega), if_pos high]
theorem State.readOnlyItem_requester (low : 0xD40 ≤ n) (high : n < 0xE00) : s.readOnlyItem n =
    (ReqSlot.all[(n - 0xD40) / 3]?).bind (fun k => (requesterItems s.arbiter k)[(n - 0xD40) % 3]?) := by
  rw [State.readOnlyItem, if_neg (by omega), if_neg (by omega), if_neg (by omega), if_neg (by omega), if_neg (by omega),
    if_neg (by omega), if_neg (by omega), if_pos high]
theorem State.readOnlyItem_request (low : 0xE00 ≤ n) (high : n < 0xF00) : s.readOnlyItem n =
    (Requester.ofNat? ((n - 0xE00) / 0x20)).bind (fun r =>
      (OutId.ofNat? ((n - 0xE00) / 0x10 % 2)).bind (fun o => (entryItems (s.entry? o r))[(n - 0xE00) % 0x10]?)) := by
  rw [State.readOnlyItem, if_neg (by omega), if_neg (by omega), if_neg (by omega), if_neg (by omega), if_neg (by omega),
    if_neg (by omega), if_neg (by omega), if_neg (by omega), if_pos high]
theorem State.readOnlyItem_output (low : 0xF00 ≤ n) (high : n < 0xF80) : s.readOnlyItem n =
    (OutId.ofNat? ((n - 0xF00) / 0x40)).bind (fun o => (s.outputItems o)[(n - 0xF00) % 0x40]?) := by
  rw [State.readOnlyItem, if_neg (by omega), if_neg (by omega), if_neg (by omega), if_neg (by omega), if_neg (by omega),
    if_neg (by omega), if_neg (by omega), if_neg (by omega), if_neg (by omega), if_pos high]
theorem State.readOnlyItem_beyond (low : 0xF80 ≤ n) : s.readOnlyItem n = none := by
  rw [State.readOnlyItem, if_neg (by omega), if_neg (by omega), if_neg (by omega), if_neg (by omega), if_neg (by omega),
    if_neg (by omega), if_neg (by omega), if_neg (by omega), if_neg (by omega), if_neg (by omega)]

end

/-- The read-only items stand below 0x0010 and from 0x0800 to 0x0F7F. -/
theorem State.readOnlyItem_bounds (named : s.readOnlyItem n = some v) : n < 0x10 ∨ 0x800 ≤ n ∧ n < 0xF80 := by
  by_contra outside
  have absent : s.readOnlyItem n = none := by
    by_cases high : n < 0x800
    · exact s.readOnlyItem_gap (by omega) high
    · exact s.readOnlyItem_beyond (by omega)
  rw [absent] at named
  cases named

/-- Every read-only item stands in an area, at its place. -/
theorem State.area_of_readOnlyItem (named : s.readOnlyItem n = some v) :
    ∃ base items i, s.Area base items ∧ n = base + i ∧ items[i]? = some v := by
  have bounds := State.readOnlyItem_bounds named
  have regions : n < 0x10 ∨ (0x800 ≤ n ∧ n < 0x900) ∨ (0x900 ≤ n ∧ n < 0xA00) ∨ (0xA00 ≤ n ∧ n < 0xB00) ∨
      (0xB00 ≤ n ∧ n < 0xD00) ∨ (0xD00 ≤ n ∧ n < 0xD40) ∨ (0xD40 ≤ n ∧ n < 0xE00) ∨ (0xE00 ≤ n ∧ n < 0xF00) ∨
      (0xF00 ≤ n ∧ n < 0xF80) := by omega
  rcases regions with high | ⟨low, high⟩ | ⟨low, high⟩ | ⟨low, high⟩ | ⟨low, high⟩ | ⟨low, high⟩ | ⟨low, high⟩ |
    ⟨low, high⟩ | ⟨low, high⟩
  · rw [s.readOnlyItem_device high] at named
    exact ⟨_, _, n, .device, (Nat.zero_add n).symm, named⟩
  · rw [s.readOnlyItem_part low high] at named
    exact ⟨_, _, n - 0x800, .part, by omega, named⟩
  · rw [s.readOnlyItem_camera low high] at named
    obtain ⟨c, camera, item⟩ := Option.bind_eq_some_iff.mp named
    have number := CamId.ofNat?_eq_some.mp camera
    exact ⟨_, _, (n - 0x900) % 0x40, .camera c, by omega, item⟩
  · rw [s.readOnlyItem_channel low high] at named
    obtain ⟨e, channel, item⟩ := Option.bind_eq_some_iff.mp named
    have number := ChanId.ofNat?_eq_some.mp channel
    exact ⟨_, _, (n - 0xA00) % 0x20, .channel e, by omega, item⟩
  · rw [s.readOnlyItem_table low high] at named
    obtain ⟨c, camera, item⟩ := Option.bind_eq_some_iff.mp named
    have number := CamId.ofNat?_eq_some.mp camera
    exact ⟨_, _, (n - 0xB00) % 0x80, .table c, by omega, item⟩
  · rw [s.readOnlyItem_engines low high] at named
    exact ⟨_, _, n - 0xD00, .engines, by omega, named⟩
  · rw [s.readOnlyItem_requester low high] at named
    obtain ⟨k, slot, item⟩ := Option.bind_eq_some_iff.mp named
    have number := ReqSlot.num_of_all slot
    exact ⟨_, _, (n - 0xD40) % 3, .requester k, by omega, item⟩
  · rw [s.readOnlyItem_request low high] at named
    obtain ⟨r, requester, rest⟩ := Option.bind_eq_some_iff.mp named
    obtain ⟨o, output, item⟩ := Option.bind_eq_some_iff.mp rest
    have number := Requester.num_of_ofNat? requester
    have parity := OutId.ofNat?_eq_some.mp output
    exact ⟨_, _, (n - 0xE00) % 0x10, .request r o, by omega, item⟩
  · rw [s.readOnlyItem_output low high] at named
    obtain ⟨o, output, item⟩ := Option.bind_eq_some_iff.mp named
    have number := OutId.ofNat?_eq_some.mp output
    exact ⟨_, _, (n - 0xF00) % 0x40, .output o, by omega, item⟩

theorem getElem?_at {α : Type} {l : List α} {i j : Nat} {a : α} (here : l[i]? = some a) (place : j = i) :
    l[j]? = some a := place ▸ here

/-- An area's items stand at their places. -/
theorem State.readOnlyItem_of_area {items : List Int} (area : s.Area base items) {i : Nat} (item : items[i]? = some v) :
    s.readOnlyItem (base + i) = some v := by
  obtain ⟨inside, -⟩ := List.getElem?_eq_some_iff.mp item
  cases area with
  | device =>
    have length : s.deviceItems.length = 4 := rfl
    rw [s.readOnlyItem_device (by omega)]
    exact getElem?_at item (Nat.zero_add i)
  | part =>
    have length := s.partItems_length
    rw [s.readOnlyItem_part (by omega) (by omega)]
    exact getElem?_at item (by omega)
  | engines =>
    have length := engineItems_copierItems_length s.engine s.stillUnit
    rw [s.readOnlyItem_engines (by omega) (by omega)]
    exact getElem?_at item (by omega)
  | camera c =>
    have length := s.cameraItems_length c
    have number := c.num_lt
    rw [s.readOnlyItem_camera (by omega) (by omega)]
    exact Option.bind_eq_some_iff.mpr ⟨c, CamId.ofNat?_eq_some.mpr (by omega), getElem?_at item (by omega)⟩
  | table c =>
    have length := (s.table c).items_length
    have number := c.num_lt
    rw [s.readOnlyItem_table (by omega) (by omega)]
    exact Option.bind_eq_some_iff.mpr ⟨c, CamId.ofNat?_eq_some.mpr (by omega), getElem?_at item (by omega)⟩
  | channel e =>
    have length : (channelItems (s.channel e)).length = 17 := rfl
    have number := e.num_lt
    rw [s.readOnlyItem_channel (by omega) (by omega)]
    exact Option.bind_eq_some_iff.mpr ⟨e, ChanId.ofNat?_eq_some.mpr (by omega), getElem?_at item (by omega)⟩
  | requester k =>
    have length : (requesterItems s.arbiter k).length = 3 := rfl
    have number := k.num_bounds
    rw [s.readOnlyItem_requester (by omega) (by omega)]
    exact Option.bind_eq_some_iff.mpr ⟨k, getElem?_at k.all_num (by omega), getElem?_at item (by omega)⟩
  | request r o =>
    have length := entryItems_length (s.entry? o r)
    have number := r.num_lt
    have parity := o.num_lt
    rw [s.readOnlyItem_request (by omega) (by omega)]
    exact Option.bind_eq_some_iff.mpr ⟨r, getElem?_at r.all_num (by omega),
      Option.bind_eq_some_iff.mpr ⟨o, OutId.ofNat?_eq_some.mpr (by omega), getElem?_at item (by omega)⟩⟩
  | output o =>
    have length := s.outputItems_length o
    have number := o.num_lt
    rw [s.readOnlyItem_output (by omega) (by omega)]
    exact Option.bind_eq_some_iff.mpr ⟨o, OutId.ofNat?_eq_some.mpr (by omega), getElem?_at item (by omega)⟩

theorem State.readOnlyItem_of_mem {a : Nat × List Int} (member : a ∈ s.itemAreas) {i : Nat} (item : a.2[i]? = some v) :
    s.readOnlyItem (a.1 + i) = some v := State.readOnlyItem_of_area (State.mem_itemAreas.mp member) item

theorem State.readOnlyItem_outside (outside : ∀ a ∈ s.itemAreas, n < a.1 ∨ a.1 + a.2.length ≤ n) :
    s.readOnlyItem n = none := by
  refine Option.eq_none_iff_forall_ne_some.mpr fun v named => ?_
  obtain ⟨base, items, i, area, place, item⟩ := State.area_of_readOnlyItem named
  obtain ⟨inside, -⟩ := List.getElem?_eq_some_iff.mp item
  have clear : n < base ∨ base + items.length ≤ n := outside (base, items) (State.mem_itemAreas.mpr area)
  omega

end Sys2Proof.Machine

end

section
/-! PARAM_READ (R208): the items as R209 lists them, and the answer by what the number names. -/

namespace Sys2Proof.Machine

variable {s : State} {node : Byte} {k : ReqSlot} {number : Word} {id : ParamId} {n : Nat} {v : Int}

/-! ### A queued message as its item reads (log entry 9) -/

theorem byteOf_zero_toNat (n : Nat) : (byteOf n 0).toNat = n % 256 := by
  rw [byteOf_zero, BitVec.toNat_ofNat]

theorem littleEndian_bytes2 (v : Word) : littleEndian (bytes2 v.toNat) = v.toNat := by
  have high : (byteOf v.toNat 1).toNat = v.toNat / 256 % 256 := by simp [byteOf]
  have width := v.isLt
  simp only [bytes2, littleEndian, byteOf_zero_toNat, high]
  omega

theorem Message.statusCode_requestResult (n t : Byte) (w : What) (r : Result) :
    (Message.requestResult n t w r).statusCode = 8 * 2 ^ 24 + (n.toNat + 256 * t.toNat + 65536 * w.code) := by
  have code : w.code % 256 = w.code := by cases w <;> rfl
  simp only [Message.statusCode, Message.offset, Message.subjectBytes, littleEndian, byteOf_zero_toNat, code]
  omega
theorem Message.statusCode_viewStatus (o : OutId) : (Message.viewStatus o).statusCode = 9 * 2 ^ 24 + o.num := by
  cases o <;> rfl
theorem Message.statusCode_cameraStatus (c : CamId) : (Message.cameraStatus c).statusCode = 10 * 2 ^ 24 + c.num := by
  cases c <;> rfl
theorem Message.statusCode_paramReply (n : Byte) (number : Word) (r : Result) (v : BitVec 32) :
    (Message.paramReply n number r v).statusCode = 11 * 2 ^ 24 + (n.toNat + 256 * number.toNat) := by
  simp only [Message.statusCode, Message.offset, Message.subjectBytes, List.singleton_append, littleEndian,
    littleEndian_bytes2]
theorem Message.statusCode_encoderReport (e : ChanId) : (Message.encoderReport e).statusCode = 12 * 2 ^ 24 + e.num := by
  cases e <;> rfl
theorem Message.statusCode_faultNotice (code : FaultCode) (subject count : Nat) :
    (Message.faultNotice code subject count).statusCode = 13 * 2 ^ 24 + (code.code + 256 * (subject % 256)) := by
  have number : code.code % 256 = code.code := by cases code <;> rfl
  simp only [Message.statusCode, Message.offset, Message.subjectBytes, littleEndian, byteOf_zero_toNat, number]
  omega

/-! ### Items of what may be absent (log entry 10) -/

theorem natItem?_eq (n : Option Nat) : natItem? n = n.elim (-1) (fun n => (n : Int)) := by cases n <;> rfl
theorem timeItem?_eq (t : Option Time) : timeItem? t = t.elim (-1) BitVec.toInt := by cases t <;> rfl
theorem lastResultItem_eq (r : Option (XY AxisResult)) (ax : Axis) :
    lastResultItem r ax = r.elim 0 (fun r => ((r.get ax).code : Int)) := by cases r <;> rfl
theorem newestSeqItem_eq (r : Option Record) : newestSeqItem r = r.elim (-65536) (fun r => (r.seq : Int)) := by
  cases r <;> rfl
theorem newestItems_eq (r : Option Record) : newestItems r =
    [natItem? (r.bind (·.concealed)), natItem? (r.bind (·.phase)),
      ((r.bind (·.meas)).bind (fun m => (m.get .x).d)).getD (-65536),
      ((r.bind (·.meas)).bind (fun m => (m.get .y).d)).getD (-65536)] := by cases r <;> rfl
theorem grantItems_eq (g : Option View) : grantItems g = g.elim [0, -1, -1, -1] (fun v => 1 :: viewItems v) := by
  cases g <;> rfl
theorem Interface.queueItem_eq (mi : Interface) :
    mi.queueItem = fun i => (mi.queue[i]?).elim (-1) (fun m => (m.statusCode : Int)) := by
  funext i
  unfold Interface.queueItem
  cases mi.queue[i]? <;> rfl

/-! ### The straps, as the device group reads them -/

theorem Interface.withErrors_rateHigh (mi : Interface) (tx rx : Nat) : (mi.withErrors tx rx).rateHigh = mi.rateHigh := by
  unfold Interface.withErrors
  split <;> rfl

theorem State.heard_deviceItems (s : State) (k : ReqSlot) : (s.heard k).deviceItems = s.deviceItems := by
  have rate : (s.heard k).mi.rateHigh = s.mi.rateHigh := s.mi.withErrors_rateHigh _ _
  have strap : (s.heard k).mi.idStrap = s.mi.idStrap := s.mi.withErrors_idStrap _ _
  simp only [State.deviceItems, Interface.bitRate, Interface.base, rate, strap, State.heard_setup]

/-! ### The answer by what the number names -/

theorem ParamId.number_bounds (id : ParamId) : 0x100 ≤ id.number ∧ id.number < 0x41C := by
  cases id with
  | cam c q => cases c <;> cases q <;> decide
  | chan e q => cases e <;> cases q <;> decide
  | out o q => cases o <;> cases q <;> decide
  | nodeCode k => cases k <;> decide
  | maxPriority k => cases k <;> decide
  | _ => decide

/-- No number names both a writable parameter and a read-only item. -/
theorem paramOf_of_readOnlyItem (named : s.readOnlyItem n = some v) : paramOf n = none := by
  have outside := State.readOnlyItem_bounds named
  refine Option.eq_none_iff_forall_ne_some.mpr fun id writable => ?_
  have number := paramOf_eq_some.mp writable
  have bounds := id.number_bounds
  omega

section
variable (hears : s.Hears node k)
include hears

theorem exec_paramRead_writable (writable : paramOf number.toNat = some id) :
    exec (.paramRead node number) s = .next (takeHead ((s.heard k).reply node number .ok (s.params.read id))) := by
  refine (message_known hears _ _).trans ?_
  simp only [State.named, writable, State.heard_params]

theorem exec_paramRead_readOnly (readable : (s.heard k).readOnlyItem number.toNat = some v) :
    exec (.paramRead node number) s = .next (takeHead ((s.heard k).reply node number .ok v)) := by
  refine (message_known hears _ _).trans ?_
  simp only [State.named, paramOf_of_readOnlyItem readable, readable]

theorem exec_paramRead_unknown (writable : paramOf number.toNat = none)
    (readable : (s.heard k).readOnlyItem number.toNat = none) :
    exec (.paramRead node number) s = .next (takeHead ((s.heard k).reply node number .badParam 0)) := by
  refine (message_known hears _ _).trans ?_
  simp only [State.named, writable, readable]
end

end Sys2Proof.Machine

open Sys2Proof Sys2Proof.Machine

/-- Settles O55: each area of R209 is one of the model's areas, item by item, and the answer goes by what the number
names. -/
theorem parameterReads : Obligations.ParameterReads := by
  unfold Obligations.ParameterReads
  intro s node k hears u replies bit opt time axes slot slots view absent source queued part camera bins channel job copy
    engines requester request output cameras outputs masters areas
  have bins_eq (c : CamId) : bins c = (u.table c).items := rfl
  have channel_eq (e : ChanId) : channel e = channelItems (u.channel e) := by
    simp only [channelItems, timeItem?_eq]
    rfl
  have requester_eq (j : ReqSlot) : requester j = requesterItems u.arbiter j := by
    simp only [requesterItems, timeItem?_eq]
    rfl
  have view_eq (v : View) : view v = viewItems v := by cases v <;> rfl
  have source_eq (w : WinSource) : source w = sourceItems (some w) := by
    simp only [sourceItems, slotItem?, natItem?_eq]
    rfl
  have request_eq (r : Requester) (o : OutId) : request r o = entryItems (u.entry? o r) := by
    simp only [request, view_eq]
    change _ = entryItems (s.entry? o r)
    cases s.entry? o r <;> rfl
  have camera_eq (c : CamId) : camera c = u.cameraItems c := by
    simp only [State.cameraItems, contextItems, tableItems, newestItems_eq, newestSeqItem_eq, lastResultItem_eq, natItem?_eq]
    rfl
  have output_eq (o : OutId) : output o = u.outputItems o := by
    change _ = compositorItems (s.output o) ++ grantStateItems (s.outGrant o) ++ stillItems (s.still o)
    simp only [compositorItems, grantStateItems, stillItems, Compositor.second?, grantItems_eq, requesterItem?, windowItems,
      slotItem?, natItem?_eq, timeItem?_eq, ← view_eq, output, source_eq, List.append_assoc]
    generalize s.output o = oc, s.still o = still
    rcases still with ⟨_, _, _ | ⟨_ | _, _, _, _⟩, _, _, _⟩ <;> cases oc.shown <;> rfl
  have engines_eq : engines = engineItems u.engine ++ copierItems u.stillUnit := by
    change _ = engineItems s.engine ++ copierItems s.stillUnit
    simp only [engines, source_eq, engineItems, copierItems, jobItems, copyItems, natItem?_eq]
    rcases s.stillUnit.running with _ | ⟨_, _ | _⟩ <;> rfl
  have queued_eq : queued = fun m => (m.statusCode : Int) := by
    funext m
    cases m <;>
    · simp only [Message.statusCode_requestResult, Message.statusCode_viewStatus, Message.statusCode_cameraStatus,
        Message.statusCode_paramReply, Message.statusCode_encoderReport, Message.statusCode_faultNotice]
      push_cast
      rfl
  have part_eq : part = u.partItems := by
    simp only [part, queued_eq, State.partItems, Interface.queueItem_eq]
    rfl
  have device_eq : [bit s.setup, (s.mi.idStrap.toNat : Int), if s.mi.rateHigh then 500 else 250,
      ((0x200 + 32 * s.mi.idStrap.toNat : Nat) : Int)] = u.deviceItems := by
    refine Eq.trans ?_ (s.heard_deviceItems k).symm
    simp only [State.deviceItems, Interface.bitRate]
    cases s.mi.rateHigh <;> rfl
  have areas_eq : areas = u.itemAreas := by
    simp only [areas, bins_eq, channel_eq, requester_eq, request_eq, camera_eq, output_eq, engines_eq, part_eq, device_eq]
    rfl
  refine ⟨fun id => exec_paramRead_writable hears ?_, fun a member i v item => ?_, fun n small others outside => ?_, rfl,
    rfl, rfl, rfl, rfl⟩
  · exact (congrArg paramOf id.word_toNat).trans (paramOf_number id)
  · have named := State.readOnlyItem_of_mem (areas_eq ▸ member) item
    have bounds := State.readOnlyItem_bounds named
    refine exec_paramRead_readOnly hears ?_
    rwa [BitVec.toNat_ofNat, Nat.mod_eq_of_lt (by omega)]
  · have number : (BitVec.ofNat 16 n).toNat = n := by rw [BitVec.toNat_ofNat, Nat.mod_eq_of_lt small]
    refine exec_paramRead_unknown hears ?_ ?_ <;> rw [number]
    · exact paramOf_eq_none others
    · exact State.readOnlyItem_outside (areas_eq ▸ outside)

end
